-- ==== Sys2Proof/Word.lean ====
section
/-! DEFINITION. The bit patterns QDEC's interface and records are made of. Bit 0 is the least
significant bit of each (00_scope.md R10). The W-bit counter patterns are `BitVec W` with
`W = CNT_W` and have no name of their own here. -/

namespace Sys2Proof

/-- One 32-bit register of the host register space, and the host data path (20_memory.md R36). -/
abbrev Word := BitVec 32

/-- The 8-bit transaction word (30_encoding.md R57). -/
abbrev TW := BitVec 8

/-- A word offset of the host register space, 0x0 to 0xF (20_memory.md R37). -/
abbrev Offset := BitVec 4

/-- A 2-bit Reading of the two channel levels (00_scope.md R14, 30_encoding.md R62). -/
abbrev Reading := BitVec 2

end Sys2Proof
end

