-- ==== Sys2Proof/Config.lean ====
section
/-! DEFINITION. The implementation parameters (00_scope.md R8) and QDEC_BASE (20_memory.md R53). They are fixed for a
machine: `State` carries them in one field that no transaction, RESET included, writes (log 1). -/

namespace Sys2Proof

/-- The parameters of one QDEC. The two bounds are R8's legal values of CNT_W: a width outside them has no model
(93_implementation_defined.md I4), so a `Config` with one cannot be built. -/
structure Config where
  /-- CNT_W, the width W of CNT and SNAP. -/
  cntW : Nat := 32
  /-- R8: 2 ≤ CNT_W. -/
  cntW_ge : 2 ≤ cntW := by decide
  /-- R8: CNT_W ≤ 32. -/
  cntW_le : cntW ≤ 32 := by decide
  /-- EDGE_CAP_A: line A can raise edge events. -/
  edgeCapA : Bool := true
  /-- EDGE_CAP_B: line B can raise edge events. -/
  edgeCapB : Bool := true
  /-- QDEC_BASE: the byte address a byte-addressed bus gives offset 0 (R50, R53). -/
  qdecBase : Nat := 0
  deriving DecidableEq, Repr

/-- R8's default values. QDEC_BASE has none in the spec; 0 is the model's (DESIGN CHOICE, log 1). -/
def Config.default : Config := {}

/-- The configuration with these parameters, or none where CNT_W is outside R8's legal values
(93_implementation_defined.md I4: "a model refuses that configuration"). -/
def Config.ofParams (w : Nat) (capA capB : Bool) (base : Nat) : Option Config :=
  if h : 2 ≤ w ∧ w ≤ 32 then
    some { cntW := w, cntW_ge := h.1, cntW_le := h.2, edgeCapA := capA, edgeCapB := capB, qdecBase := base }
  else
    none

end Sys2Proof
end

