-- ==== Sys2Proof/Syntax.lean ====
section
/-! DEFINITION. The transactions QDEC runs (its "instructions", 30_encoding.md), one constructor per row of the opcode
table, the formats, the reasons a word is refused for, the motion classification and the listing lines. -/

namespace Sys2Proof

/-- The KIND field, TW[7:6] (30_encoding.md R57). -/
inductive Kind where
  /-- 0b00 -/
  | hostRead
  /-- 0b01 -/
  | hostWrite
  /-- 0b10 -/
  | edgeEvent
  /-- 0b11 -/
  | reserved
  deriving DecidableEq, Repr

/-- The three formats of 30_encoding.md R58. -/
inductive Format where
  /-- Host read: an 8-bit TW, answered by a 32-bit rdata. -/
  | hr
  /-- Host write: an 8-bit TW and the 32-bit operand WDATA, no answer. -/
  | hw
  /-- Edge event: an 8-bit TW, no answer. -/
  | ev
  deriving DecidableEq, Repr

/-- Why a transaction word spells no transaction: the four names of 30_encoding.md R61's decoder (R59 (a) to (d)). -/
inductive Reject where
  /-- Z_NONZERO: bits 5:4 are not zero; tested first, whatever KIND is. -/
  | zNonzero
  /-- EDGE_SEL_HIGH: an edge event with SEL[3:2] not zero. -/
  | edgeSelHigh
  /-- EDGE_NONE: an edge event on no channel, TW 0x80. -/
  | edgeNone
  /-- KIND_RESERVED: KIND is 0b11. -/
  | kindReserved
  deriving DecidableEq, Repr

/-- The transactions of opcode_table.json, one constructor per row, in the table's order. `off` is SEL = TW[3:0],
`wdata` the 32-bit operand of a host write (30_encoding.md R67). -/
inductive Instr where
  /-- RD_COUNT, TW 0x00 (41_host.md R87). -/
  | rdCount
  /-- RD_OLD_COUNT, TW 0x01 (R88). -/
  | rdOldCount
  /-- RD_MOTION, TW 0x02 (R89). -/
  | rdMotion
  /-- RD_STATUS, TW 0x03 (R91). -/
  | rdStatus
  /-- RD_RAZ at a command offset, 0x4 REVERSE or 0x5 INIT (R94). -/
  | rdRazCommand (off : Offset)
  /-- RD_RAZ at a reserved offset 0x6 or 0x7 (R94). -/
  | rdRazReservedLow (off : Offset)
  /-- RD_RAZ at a reserved offset 0x8 to 0xF (R94). -/
  | rdRazReservedHigh (off : Offset)
  /-- WR_IGNORED at a read-only offset 0x0 to 0x3 (R95). -/
  | wrIgnoredReadOnly (off : Offset) (wdata : Word)
  /-- WR_REVERSE, TW 0x44 (R92). -/
  | wrReverse (wdata : Word)
  /-- WR_INIT, TW 0x45 (R93). -/
  | wrInit (wdata : Word)
  /-- WR_IGNORED at a reserved offset 0x6 or 0x7 (R95). -/
  | wrIgnoredReservedLow (off : Offset) (wdata : Word)
  /-- WR_IGNORED at a reserved offset 0x8 to 0xF (R95). -/
  | wrIgnoredReservedHigh (off : Offset) (wdata : Word)
  /-- EDGE_A, TW 0x81 (40_edge.md R76). -/
  | edgeA
  /-- EDGE_B, TW 0x82 (R77). -/
  | edgeB
  /-- EDGE_AB, TW 0x83 (R78). -/
  | edgeAB
  deriving DecidableEq, Repr

/-- The format of each transaction (30_encoding.md R58, opcode_table.json "format"). -/
def Instr.format : Instr → Format
  | .rdCount => .hr
  | .rdOldCount => .hr
  | .rdMotion => .hr
  | .rdStatus => .hr
  | .rdRazCommand _ => .hr
  | .rdRazReservedLow _ => .hr
  | .rdRazReservedHigh _ => .hr
  | .wrIgnoredReadOnly _ _ => .hw
  | .wrReverse _ => .hw
  | .wrInit _ => .hw
  | .wrIgnoredReservedLow _ _ => .hw
  | .wrIgnoredReservedHigh _ _ => .hw
  | .edgeA => .ev
  | .edgeB => .ev
  | .edgeAB => .ev

/-- The motion classification of the source's `motion()` (41_host.md R89). -/
inductive Motion where
  | stationary
  | forward
  | backward
  deriving DecidableEq, Repr

/-- The register operand of a listing line (30_encoding.md R68): a register name of 20_memory.md R38 or a number,
which the syntax allows for the reserved offsets only. -/
inductive ListingReg where
  | count
  | oldCount
  | motion
  | status
  | reverse
  | init
  | reservedOffset (off : Offset)
  deriving DecidableEq, Repr

/-- The channel operand of an `EDGE` listing line (30_encoding.md R68). -/
inductive ListingEdge where
  | a
  | b
  | ab
  deriving DecidableEq, Repr

/-- One line of a transaction listing (30_encoding.md R68). The `[agent]` prefix and comments have no effect and are
left out. -/
inductive ListingLine where
  /-- `RD <reg>` -/
  | rd (reg : ListingReg)
  /-- `WR <reg>, <imm32>` -/
  | wr (reg : ListingReg) (imm : Word)
  /-- `EDGE A | B | AB` -/
  | edge (sel : ListingEdge)
  /-- `RESET`: the rst strobe, not a TW -/
  | reset
  deriving DecidableEq, Repr

/-- The pseudo-instructions of 30_encoding.md R69: the source's public operations. -/
inductive Pseudo where
  | count
  | oldCount
  | motion
  | status
  | reverse
  | init
  deriving DecidableEq, Repr

end Sys2Proof
end

