-- ==== Sys2Proof/WellFormed.lean ====
section
/-! DEFINITION. When an instruction's operands lie in its opcode-table row: the offset must be one the row's free bits
can spell (30_encoding.md R61). A 32-bit WDATA has no further check. -/

namespace Sys2Proof

/-- The offset of `i`, where it has one, lies in the range of its row of 30_encoding.md R61. -/
def Instr.wf : Instr → Bool
  | .rdCount => true
  | .rdOldCount => true
  | .rdMotion => true
  | .rdStatus => true
  | .rdRazCommand off => decide (4 ≤ off.toNat ∧ off.toNat ≤ 5)
  | .rdRazReservedLow off => decide (6 ≤ off.toNat ∧ off.toNat ≤ 7)
  | .rdRazReservedHigh off => decide (8 ≤ off.toNat)
  | .wrIgnoredReadOnly off _ => decide (off.toNat ≤ 3)
  | .wrReverse _ => true
  | .wrInit _ => true
  | .wrIgnoredReservedLow off _ => decide (6 ≤ off.toNat ∧ off.toNat ≤ 7)
  | .wrIgnoredReservedHigh off _ => decide (8 ≤ off.toNat)
  | .edgeA => true
  | .edgeB => true
  | .edgeAB => true

end Sys2Proof
end

