-- ==== Sys2Proof/Decode.lean ====
section
/-! DEFINITION. The decoder of 30_encoding.md R61, total on every transaction word and rejecting by name, the rows of the
opcode table, and the encoder written from those rows. -/

namespace Sys2Proof

/-- KIND = TW[7:6] (30_encoding.md R57). -/
def kindOf (tw : TW) : Kind :=
  match (tw.extractLsb' 6 2).toNat with
  | 0 => .hostRead
  | 1 => .hostWrite
  | 2 => .edgeEvent
  | _ => .reserved

/-- Z = TW[5:4], must be 0b00 (R57). -/
def zOf (tw : TW) : BitVec 2 := tw.extractLsb' 4 2

/-- SEL = TW[3:0] (R57). -/
def selOf (tw : TW) : Offset := tw.extractLsb' 0 4

/-- KIND 0b00: a read of the register at `off` (R61). -/
def decodeRead (off : Offset) : Instr :=
  match off.toNat with
  | 0 => .rdCount
  | 1 => .rdOldCount
  | 2 => .rdMotion
  | 3 => .rdStatus
  | 4 | 5 => .rdRazCommand off
  | 6 | 7 => .rdRazReservedLow off
  | _ => .rdRazReservedHigh off

/-- KIND 0b01: a write of `wdata` to the register at `off` (R61). -/
def decodeWrite (off : Offset) (wdata : Word) : Instr :=
  match off.toNat with
  | 4 => .wrReverse wdata
  | 5 => .wrInit wdata
  | 0 | 1 | 2 | 3 => .wrIgnoredReadOnly off wdata
  | 6 | 7 => .wrIgnoredReservedLow off wdata
  | _ => .wrIgnoredReservedHigh off wdata

/-- KIND 0b10: an edge event, SEL = {0b00, eB, eA} (R57, R61). -/
def decodeEdge (sel : Offset) : Except Reject Instr :=
  if sel.extractLsb' 2 2 ≠ 0 then .error .edgeSelHigh
  else
    match (sel.extractLsb' 0 2).toNat with
    | 1 => .ok .edgeA
    | 2 => .ok .edgeB
    | 3 => .ok .edgeAB
    | _ => .error .edgeNone

/-- The decoder of R61: Z is tested before KIND. `wdata` is the operand presented with the word; only format HW has one
(R58), so the others do not look at it. -/
def decode (tw : TW) (wdata : Word) : Except Reject Instr :=
  if zOf tw ≠ 0 then .error .zNonzero
  else
    match kindOf tw with
    | .hostRead => .ok (decodeRead (selOf tw))
    | .hostWrite => .ok (decodeWrite (selOf tw) wdata)
    | .edgeEvent => decodeEdge (selOf tw)
    | .reserved => .error .kindReserved

/-- One row of the opcode table: a word belongs to it when `tw &&& mask = value` (30_encoding.md R61). -/
structure OpcodeRow where
  value : TW
  mask : TW
  mnemonic : String
  deriving DecidableEq, Repr

/-- The 15 rows of opcode_table.json, in its order, which is the order of `Instr`'s constructors. -/
def opcodeRows : List OpcodeRow :=
  [⟨0x00, 0xFF, "RD_COUNT"⟩, ⟨0x01, 0xFF, "RD_OLD_COUNT"⟩, ⟨0x02, 0xFF, "RD_MOTION"⟩, ⟨0x03, 0xFF, "RD_STATUS"⟩,
   ⟨0x04, 0xFE, "RD_RAZ"⟩, ⟨0x06, 0xFE, "RD_RAZ"⟩, ⟨0x08, 0xF8, "RD_RAZ"⟩] ++
  [⟨0x40, 0xFC, "WR_IGNORED"⟩, ⟨0x44, 0xFF, "WR_REVERSE"⟩, ⟨0x45, 0xFF, "WR_INIT"⟩,
   ⟨0x46, 0xFE, "WR_IGNORED"⟩, ⟨0x48, 0xF8, "WR_IGNORED"⟩] ++
  [⟨0x81, 0xFF, "EDGE_A"⟩, ⟨0x82, 0xFF, "EDGE_B"⟩, ⟨0x83, 0xFF, "EDGE_AB"⟩]

/-- `tw` belongs to the row. -/
def OpcodeRow.hits (r : OpcodeRow) (tw : TW) : Bool := tw &&& r.mask == r.value

/-- The place of an instruction's row in `opcodeRows`. -/
def Instr.rowIndex : Instr → Nat
  | .rdCount => 0
  | .rdOldCount => 1
  | .rdMotion => 2
  | .rdStatus => 3
  | .rdRazCommand _ => 4
  | .rdRazReservedLow _ => 5
  | .rdRazReservedHigh _ => 6
  | .wrIgnoredReadOnly _ _ => 7
  | .wrReverse _ => 8
  | .wrInit _ => 9
  | .wrIgnoredReservedLow _ _ => 10
  | .wrIgnoredReservedHigh _ _ => 11
  | .edgeA => 12
  | .edgeB => 13
  | .edgeAB => 14

/-- A row's fixed bits with the offset's bits put where the row's mask is clear. -/
def rowWord (value mask : TW) (off : Offset) : TW := value ||| (off.setWidth 8 &&& ~~~mask)

/-- The words of an instruction: its TW, and its operand WDATA for format HW (30_encoding.md R58). -/
def encode : Instr → TW × Option Word
  | .rdCount => (0x00, none)
  | .rdOldCount => (0x01, none)
  | .rdMotion => (0x02, none)
  | .rdStatus => (0x03, none)
  | .rdRazCommand off => (rowWord 0x04 0xFE off, none)
  | .rdRazReservedLow off => (rowWord 0x06 0xFE off, none)
  | .rdRazReservedHigh off => (rowWord 0x08 0xF8 off, none)
  | .wrIgnoredReadOnly off wdata => (rowWord 0x40 0xFC off, some wdata)
  | .wrReverse wdata => (0x44, some wdata)
  | .wrInit wdata => (0x45, some wdata)
  | .wrIgnoredReservedLow off wdata => (rowWord 0x46 0xFE off, some wdata)
  | .wrIgnoredReservedHigh off wdata => (rowWord 0x48 0xF8 off, some wdata)
  | .edgeA => (0x81, none)
  | .edgeB => (0x82, none)
  | .edgeAB => (0x83, none)

/-- The transaction word in the low 8 bits of an instruction numbered as the opcode table numbers it; bits above
`nbits` are 0. -/
def tableTW (nbits w : Nat) : TW := BitVec.ofNat 8 (w % 2 ^ nbits)

/-- The operand WDATA, the second word, in bits 39:8 of that numbering (log 8). -/
def tableOperand (nbits w : Nat) : Word := BitVec.ofNat 32 ((w % 2 ^ nbits) >>> 8)

/-- The instruction the decoder reads from an instruction whose bits, numbered as the opcode table numbers them, are `w`
(none where it refuses). -/
def decodeTableWord (nbits w : Nat) : Option Instr :=
  match decode (tableTW nbits w) (tableOperand nbits w) with
  | .ok i => some i
  | .error _ => none

end Sys2Proof
end

