-- ==== Sys2Proof/Machine/State.lean ====
section
/-! DEFINITION. The state of the machine: the elements of 10_state.md R15, the parameters of 00_scope.md R8, and the
interface (inputs, response, the environment's deliveries) that makes one step a function of plain data
(00_scope.md R13). -/

namespace Sys2Proof.Machine

/-- An agent outside QDEC whose steps change its state (00_scope.md R7, 60_exceptions.md R111). -/
inductive Agent where
  | host
  | edgeSourceA
  | edgeSourceB
  | resetSource
  deriving DecidableEq, Repr

/-- What the environment presents for one atomic transaction (20_memory.md R34, R35). -/
inductive Request where
  /-- The `rst` strobe: the RESET transaction. -/
  | rst
  /-- A strobe of `h_req` with `h_we`, `h_off`, `h_wdata`. -/
  | host (we : Bool) (off : Offset) (wdata : Word)
  /-- A strobe of the edge inputs with `ev_a`, `ev_b`. -/
  | edges (evA evB : Bool)
  /-- A raw transaction word and the operand presented with it (30_encoding.md R57); the only way an ill-formed word
  can be delivered, since the strobes above cannot form one (R59). -/
  | word (tw : TW) (wdata : Word)
  /-- An access through a byte-addressed bus bridge of the platform (20_memory.md R50, 30_encoding.md R60): `nbytes`
  bytes at byte address `addr`. -/
  | bus (we : Bool) (addr nbytes : Nat) (wdata : Word)
  deriving DecidableEq, Repr

/-- One transaction of the environment, with the line levels that hold while it runs (10_state.md R29). -/
structure Delivery where
  lineA : Bool
  lineB : Bool
  req : Request
  deriving DecidableEq, Repr

/-- QDEC raises no exception, trap or fault, and no transaction has a fault outcome (60_exceptions.md R100, 00_scope.md
R13): there is no fault reason, so nothing can raise one. -/
inductive Fault
  deriving DecidableEq, Repr

/-- Why the model gives a delivered request no meaning. Every refusal is safe: nothing can be proved of a machine that
stops. -/
inductive Refusal where
  /-- Raised by a refused arm of `exec` only: an instruction with no meaning yet. None is left. Safe. -/
  | notModelled (mnemonic : String)
  /-- Raised by `fetch` for a transaction word that spells no transaction (30_encoding.md R59). Safe. -/
  | illFormedWord (why : Reject)
  /-- Raised by `fetch` for a bus access that is not one whole aligned 32-bit register (30_encoding.md R60, 20_memory.md
  R51). Safe. -/
  | busNotWholeRegister
  /-- Raised by `fetch` for a bus access outside the 16 registers at QDEC_BASE: it is not this block's transaction
  (20_memory.md R37, R53; log 6). Safe. -/
  | busOutsideBlock
  deriving DecidableEq, Repr

/-- The whole machine. The fields from `lvlA` to `cfgErr` are the state of 10_state.md R15 and nothing else of the block
persists; the others are its parameters and its interface. -/
structure State where
  /-- The parameters (00_scope.md R8). No transaction writes them. -/
  cfg : Config
  /-- LVL_A (10_state.md R16). -/
  lvlA : Bool
  /-- LVL_B (10_state.md R16). -/
  lvlB : Bool
  /-- OLD_RD, the Reading before the most recent edge (10_state.md R18). -/
  oldRd : Reading
  /-- NEW_RD, the Reading after it (10_state.md R18). -/
  newRd : Reading
  /-- CNT, the position counter, a W-bit pattern (10_state.md R20). -/
  cnt : BitVec cfg.cntW
  /-- SNAP, the motion snapshot, a W-bit pattern (10_state.md R22). -/
  snap : BitVec cfg.cntW
  /-- REV, the orientation flag (10_state.md R23). -/
  rev : Bool
  /-- ARMED, the edge handlers are registered (10_state.md R24). -/
  armed : Bool
  /-- CFG_ERR, the configuration error (10_state.md R25). -/
  cfgErr : Bool
  /-- The input `line_a` as the current transaction sees it (10_state.md R29). -/
  lineA : Bool
  /-- The input `line_b` as the current transaction sees it (10_state.md R29). -/
  lineB : Bool
  /-- The response of the last transaction: some 32-bit value after a host read, none after any other (00_scope.md R13,
  20_memory.md R36; log 4). -/
  rdata : Option Word
  /-- The environment's transactions, the next one first (20_memory.md R46; log 2). -/
  pending : List Delivery
  deriving DecidableEq, Repr

/-- The machine right after RESET (70_reset_and_hazards.md R118), with R8's default parameters, no response, no
delivery, and both inputs low (log 1, log 2, log 4, log 5). -/
def State.reset : State where
  cfg := Config.default
  lvlA := false
  lvlB := false
  oldRd := 0
  newRd := 0
  cnt := 0
  snap := 0
  rev := false
  armed := false
  cfgErr := false
  lineA := false
  lineB := false
  rdata := none
  pending := []

/-- What the signals of one strobe ask for, once formed (20_memory.md R35). -/
inductive Transaction where
  /-- RESET, which is not a TW (30_encoding.md R57). -/
  | reset
  /-- A transaction word with the operand presented beside it. -/
  | word (tw : TW) (wdata : Word)
  deriving DecidableEq, Repr

/-- What the machine finds to do next. -/
inductive Fetched where
  /-- No strobe: nothing happens. -/
  | idle
  /-- RESET, with the request taken from the front of the deliveries. -/
  | reset (s : State)
  /-- A transaction that decodes to `i`, with the request taken from the front of the deliveries. -/
  | run (i : Instr) (s : State)
  /-- A request the model gives no meaning. -/
  | refuse (r : Refusal)
  deriving DecidableEq, Repr

end Sys2Proof.Machine
end

