-- ==== Sys2Proof/Machine/Operands.lean ====
section
/-! DEFINITION. What transactions compute from the state: the integer notation of 00_scope.md R11, Reading composition,
the transition ROM and its index and storage code, the motion delta, classification and code, extension to rdata, and
the values of the host registers (20_memory.md R39 to R41). -/

namespace Sys2Proof.Machine

/-- `sval_W(p)`: the two's-complement value of a W-bit pattern (00_scope.md R11). -/
def sval {w : Nat} (p : BitVec w) : Int := p.toInt

/-- `wrap_W(n)`: the W-bit pattern congruent to `n` modulo 2^W (00_scope.md R11). -/
def wrap (w : Nat) (n : Int) : BitVec w := BitVec.ofInt w n

/-- `sext_32(p)` (00_scope.md R11, 30_encoding.md R67). -/
def sext32 {w : Nat} (p : BitVec w) : Word := p.signExtend 32

/-- `zext_32(p)` (00_scope.md R11, 30_encoding.md R67). -/
def zext32 {w : Nat} (p : BitVec w) : Word := p.setWidth 32

/-- A 2-bit pattern from its high and its low bit, `{hi, lo}` (00_scope.md R10). -/
def pair (hi lo : Bool) : BitVec 2 := BitVec.ofBool hi ++ BitVec.ofBool lo

/-- `compose(a, b, rev)`: channel A is the high bit with REV = 0, channel B with REV = 1 (30_encoding.md R62, the spec's
decision D4). -/
def compose (a b rev : Bool) : Reading := if rev then pair b a else pair a b

/-- The ROM index `{old, new}` = old*4 + new (30_encoding.md R63). -/
def romIndex (old new : Reading) : BitVec 4 := old ++ new

/-- The 16 entries of the transition ROM T, as 10_state.md R26 quotes them. -/
def romEntries : List Int := [0, -1, 1, 2, 1, 0, 2, -1] ++ [-1, 2, 0, 1, 2, 1, -1, 0]

/-- `T[i]` (10_state.md R26, R27): a constant of the model, in no part of State. -/
def rom (i : BitVec 4) : Int := romEntries.getD i.toNat 0

/-- The 2-bit storage code an implementation may keep a ROM entry as (30_encoding.md R64). -/
def storageCode (step : Int) : BitVec 2 :=
  if step = 1 then 0b01 else if step = -1 then 0b11 else if step = 2 then 0b10 else 0b00

/-- The step a storage code stands for (30_encoding.md R64); 0b10 is +2 and not the two's-complement -2. -/
def stepOfCode (c : BitVec 2) : Int :=
  match c.toNat with
  | 1 => 1
  | 2 => 2
  | 3 => -1
  | _ => 0

/-- Step 5 of an edge: the counter moves by a step of +1 or -1 and wraps; 0 and +2 leave it (40_edge.md R75,
10_state.md R21). -/
def countStep {w : Nat} (step : Int) (c : BitVec w) : BitVec w :=
  if step = 1 ∨ step = -1 then wrap w (sval c + step) else c

/-- The motion delta, a wrapped W-bit signed difference (41_host.md R90). -/
def motionDelta {w : Nat} (c snap : BitVec w) : Int := sval (wrap w (sval c - sval snap))

/-- The classification of a delta (41_host.md R89). -/
def classify (delta : Int) : Motion :=
  if delta > 0 then .forward else if delta < 0 then .backward else .stationary

/-- MCODE, the motion code (30_encoding.md R65). -/
def mcode : Motion → BitVec 2
  | .stationary => 0b00
  | .forward => 0b01
  | .backward => 0b11

/-- The classification an MCODE stands for; 0b10 is never produced and stands for none (30_encoding.md R65, R66). -/
def motionOfCode (c : BitVec 2) : Option Motion :=
  match c.toNat with
  | 0 => some .stationary
  | 1 => some .forward
  | 3 => some .backward
  | _ => none

/-- The human-readable name of a classification, a host-software function, spelled as in 30_encoding.md R66 (log 11). -/
def motionName : Motion → String
  | .stationary => "stationary"
  | .forward => "forward"
  | .backward => "backward"

/-- COUNT, offset 0x0 (20_memory.md R39). -/
def countValue (s : State) : Word := sext32 s.cnt

/-- OLD_COUNT, offset 0x1 (20_memory.md R40). -/
def oldCountValue (s : State) : Word := sext32 s.snap

/-- MOTION, offset 0x2: MCODE in bits 1:0, zero above (20_memory.md R41). -/
def motionValue (s : State) : Word := zext32 (mcode (classify (motionDelta s.cnt s.snap)))

/-- Byte lane `k` of a register on a byte-addressed bus, lanes numbered little-endian: lane 0 holds bits 7:0
(20_memory.md R50). -/
def busLane (v : Word) (k : Nat) : BitVec 8 := v.extractLsb' (8 * k) 8

end Sys2Proof.Machine
end

