-- ==== Sys2Proof/Machine/Flags.lean ====
section
/-! DEFINITION. The three status flags REV, ARMED and CFG_ERR (10_state.md R32) and the STATUS register that shows them
(20_memory.md R42). QDEC has no condition codes. -/

namespace Sys2Proof.Machine

/-- STATUS: `{29'b0, CFG_ERR, ARMED, REV}` (20_memory.md R42, 41_host.md R91). -/
def statusBits (cfgErr armed rev : Bool) : Word :=
  zext32 (BitVec.ofBool cfgErr ++ BitVec.ofBool armed ++ BitVec.ofBool rev)

/-- The STATUS word of a state. -/
def statusValue (s : State) : Word := statusBits s.cfgErr s.armed s.rev

/-- REV after `reverse()` (41_host.md R92). -/
def reversedFlag (rev : Bool) : Bool := !rev

/-- Both lines can raise edge events: what initialization requires (41_host.md R93, the spec's decision D32). -/
def linesCapable (cfg : Config) : Bool := cfg.edgeCapA && cfg.edgeCapB

end Sys2Proof.Machine
end

