-- ==== Sys2Proof/Machine/Ops.lean ====
section
/-! DEFINITION. The shared operations the meanings are made of: the response, the edge procedure (40_edge.md R71), the
classifier's snapshot, initialization (41_host.md R93), RESET (70_reset_and_hazards.md R117), the formation of a
transaction from the interface (20_memory.md R35) and the fetch of the next one.

There is no operation that takes an exception and none that returns from one: QDEC has no exception, trap, saved
register, vector or mode (60_exceptions.md R100, R108, R109, R111). -/

namespace Sys2Proof.Machine

/-- A host read answers exactly one 32-bit rdata (20_memory.md R36, 41_host.md R86). -/
def respond (v : Word) (s : State) : State := { s with rdata := some v }

/-- Any other transaction answers none (00_scope.md R13). -/
def quiet (s : State) : State := { s with rdata := none }

/-- `SNAP <- c`, where `c` is the one sample of CNT (41_host.md R89). -/
def takeSnapshot (s : State) : State := { s with snap := s.cnt }

/-- `REV <- not REV` (41_host.md R92). -/
def toggleRev (s : State) : State := { s with rev := reversedFlag s.rev }

/-- The writes of one armed edge: the levels, both Readings and the counter, together (40_edge.md R74, R75). -/
def recordEdge (a b : Bool) (old new : Reading) (step : Int) (s : State) : State :=
  { s with lvlA := a, lvlB := b, oldRd := old, newRd := new, cnt := countStep step s.cnt }

/-- The edge procedure `edge(eA, eB)` of 40_edge.md R71; while ARMED = 0 it changes nothing (R79). The old Reading is
composed from the levels under the current REV, not read from NEW_RD (R72, the spec's decision D5). -/
def edge (eA eB : Bool) (s : State) : State :=
  if s.armed then
    let old := compose s.lvlA s.lvlB s.rev
    let a := s.lvlA ^^ eA
    let b := s.lvlB ^^ eB
    let new := compose a b s.rev
    recordEdge a b old new (rom (romIndex old new)) s
  else s

/-- A successful initialization: the levels are the sampled lines, both Readings the initial one, ARMED set and CFG_ERR
cleared (41_host.md R93). -/
def seed (s : State) : State :=
  { s with
    lvlA := s.lineA
    lvlB := s.lineB
    oldRd := compose s.lineA s.lineB s.rev
    newRd := compose s.lineA s.lineB s.rev
    armed := true
    cfgErr := false }

/-- A failed initialization: CFG_ERR set, ARMED stays 0 (41_host.md R93). -/
def markCfgErr (s : State) : State := { s with cfgErr := true }

/-- The initialization operation (41_host.md R93): the ARMED test comes before the capability test
(60_exceptions.md R107). -/
def initOperation (s : State) : State :=
  if s.armed then s else if linesCapable s.cfg then seed s else markCfgErr s

/-- RESET: every element of 10_state.md R15 takes its reset value (70_reset_and_hazards.md R117, R118). The parameters,
the inputs and what the environment has still to deliver are not elements of R15. -/
def resetBlock (s : State) : State :=
  { s with
    lvlA := false
    lvlB := false
    oldRd := 0
    newRd := 0
    cnt := 0
    snap := 0
    rev := false
    armed := false
    cfgErr := false }

/-- `TW = {0b0, h_we, 0b00, h_off}` for a host strobe (20_memory.md R35). -/
def hostWord (we : Bool) (off : Offset) : TW := 0#1 ++ BitVec.ofBool we ++ 0#2 ++ off

/-- `TW = {0b10, 0b00, 0b00, ev_b, ev_a}` for a strobe of the edge inputs (20_memory.md R35). With neither event it is
0x80, which the decoder refuses (30_encoding.md R59 (d)). -/
def edgeWord (evA evB : Bool) : TW := 0b10#2 ++ 0#2 ++ 0#2 ++ BitVec.ofBool evB ++ BitVec.ofBool evA

/-- The register offset a bus access reaches: offset `k` is at byte address `base + 4*k`, in whole aligned 32-bit
accesses only (20_memory.md R50); anything else is refused (30_encoding.md R60; log 6). -/
def busOffset (base addr nbytes : Nat) : Except Refusal Offset :=
  if nbytes ≠ 4 ∨ addr % 4 ≠ base % 4 then .error .busNotWholeRegister
  else if addr < base ∨ base + 64 ≤ addr then .error .busOutsideBlock
  else .ok (BitVec.ofNat 4 ((addr - base) / 4))

/-- The transaction that the signals of a request form (20_memory.md R35). -/
def formTransaction (cfg : Config) : Request → Except Refusal Transaction
  | .rst => .ok .reset
  | .host we off wdata => .ok (.word (hostWord we off) wdata)
  | .edges evA evB => .ok (.word (edgeWord evA evB) 0)
  | .word tw wdata => .ok (.word tw wdata)
  | .bus we addr nbytes wdata =>
    match busOffset cfg.qdecBase addr nbytes with
    | .ok off => .ok (.word (hostWord we off) wdata)
    | .error r => .error r

/-- The agents that issue a request (00_scope.md R7, 60_exceptions.md R111). A raw word names none. -/
def Request.agents : Request → List Agent
  | .rst => [.resetSource]
  | .host _ _ _ => [.host]
  | .edges evA evB => (if evA then [.edgeSourceA] else []) ++ (if evB then [.edgeSourceB] else [])
  | .word _ _ => []
  | .bus _ _ _ _ => [.host]

/-- The machine with the delivery `d` taken up: its line levels on the inputs, `rest` still to come. -/
def accept (d : Delivery) (rest : List Delivery) (s : State) : State :=
  { s with lineA := d.lineA, lineB := d.lineB, pending := rest }

/-- What the front of the deliveries asks for, formed and decoded. -/
def fetch (s : State) : Fetched :=
  match s.pending with
  | [] => .idle
  | d :: rest =>
    match formTransaction s.cfg d.req with
    | .error r => .refuse r
    | .ok .reset => .reset (accept d rest s)
    | .ok (.word tw wdata) =>
      match decode tw wdata with
      | .ok i => .run i (accept d rest s)
      | .error why => .refuse (.illFormedWord why)

/-- The RESET transaction as a whole: the block reset, no response. -/
def resetTransaction (s : State) : State := quiet (resetBlock s)

/-- A transaction word put before every other delivery, under the line levels the inputs now have. -/
def deliverWord (tw : TW) (wdata : Word) (s : State) : State :=
  { s with pending := ⟨s.lineA, s.lineB, .word tw wdata⟩ :: s.pending }

end Sys2Proof.Machine
end

