-- ==== Sys2Proof/Machine/Edge.lean ====
section
/-! DEFINITION. The edge handlers (40_edge.md): format EV, no response. -/

namespace Sys2Proof.Machine

/-- EDGE_A (40_edge.md R76): `edge(1, 0)`. -/
def execEdgeA (s : State) : Host.Outcome State Fault Refusal := .next (quiet (edge true false s))

/-- EDGE_B (40_edge.md R77): `edge(0, 1)`. -/
def execEdgeB (s : State) : Host.Outcome State Fault Refusal := .next (quiet (edge false true s))

/-- EDGE_AB (40_edge.md R78): `edge(1, 1)`, the coalesced edge. -/
def execEdgeAB (s : State) : Host.Outcome State Fault Refusal := .next (quiet (edge true true s))

end Sys2Proof.Machine
end

