-- ==== Sys2Proof/Machine/HostRead.lean ====
section
/-! DEFINITION. The host reads (41_host.md, section 2 and R94): format HR, one 32-bit rdata each. -/

namespace Sys2Proof.Machine

/-- RD_COUNT (41_host.md R87): `rdata <- sext_32(CNT)`. -/
def execRdCount (s : State) : Host.Outcome State Fault Refusal := .next (respond (countValue s) s)

/-- RD_OLD_COUNT (41_host.md R88): `rdata <- sext_32(SNAP)`. -/
def execRdOldCount (s : State) : Host.Outcome State Fault Refusal := .next (respond (oldCountValue s) s)

/-- RD_MOTION (41_host.md R89): the classification of the wrapped delta, then `SNAP <- c`, from one sample of CNT. -/
def execRdMotion (s : State) : Host.Outcome State Fault Refusal := .next (respond (motionValue s) (takeSnapshot s))

/-- RD_STATUS (41_host.md R91): `rdata <- zext_32({CFG_ERR, ARMED, REV})`. -/
def execRdStatus (s : State) : Host.Outcome State Fault Refusal := .next (respond (statusValue s) s)

/-- RD_RAZ at the command offsets 0x4 and 0x5 (41_host.md R94): `rdata <- 0`, no toggle, no initialization. -/
def execRdRazCommand (_off : Offset) (s : State) : Host.Outcome State Fault Refusal := .next (respond 0 s)

/-- RD_RAZ at the reserved offsets 0x6 and 0x7 (41_host.md R94): `rdata <- 0`. -/
def execRdRazReservedLow (_off : Offset) (s : State) : Host.Outcome State Fault Refusal := .next (respond 0 s)

/-- RD_RAZ at the reserved offsets 0x8 to 0xF (41_host.md R94): `rdata <- 0`. -/
def execRdRazReservedHigh (_off : Offset) (s : State) : Host.Outcome State Fault Refusal := .next (respond 0 s)

end Sys2Proof.Machine
end

