-- ==== Sys2Proof/Machine/HostWrite.lean ====
section
/-! DEFINITION. The host writes (41_host.md, section 3 and R95): format HW. No write looks at WDATA (R86) and none
answers. -/

namespace Sys2Proof.Machine

/-- WR_IGNORED at the read-only offsets 0x0 to 0x3 (41_host.md R95): no state change. -/
def execWrIgnoredReadOnly (_off : Offset) (_wdata : Word) (s : State) : Host.Outcome State Fault Refusal :=
  .next (quiet s)

/-- WR_REVERSE (41_host.md R92): `REV <- not REV`, whatever ARMED is. -/
def execWrReverse (_wdata : Word) (s : State) : Host.Outcome State Fault Refusal := .next (quiet (toggleRev s))

/-- WR_INIT (41_host.md R93): the initialization operation. -/
def execWrInit (_wdata : Word) (s : State) : Host.Outcome State Fault Refusal := .next (quiet (initOperation s))

/-- WR_IGNORED at the reserved offsets 0x6 and 0x7 (41_host.md R95): no state change. -/
def execWrIgnoredReservedLow (_off : Offset) (_wdata : Word) (s : State) : Host.Outcome State Fault Refusal :=
  .next (quiet s)

/-- WR_IGNORED at the reserved offsets 0x8 to 0xF (41_host.md R95): no state change. -/
def execWrIgnoredReservedHigh (_off : Offset) (_wdata : Word) (s : State) : Host.Outcome State Fault Refusal :=
  .next (quiet s)

end Sys2Proof.Machine
end

