-- ==== Sys2Proof/Machine/Dispatch.lean ====
section
/-! DEFINITION. One arm per transaction of the opcode table. -/

namespace Sys2Proof.Machine

def exec (i : Instr) (s : State) : Host.Outcome State Fault Refusal :=
  match i with
  -- host reads (41_host.md)
  | .rdCount => Sys2Proof.Machine.execRdCount s
  | .rdOldCount => Sys2Proof.Machine.execRdOldCount s
  | .rdMotion => Sys2Proof.Machine.execRdMotion s
  | .rdStatus => Sys2Proof.Machine.execRdStatus s
  | .rdRazCommand off => Sys2Proof.Machine.execRdRazCommand off s
  | .rdRazReservedLow off => Sys2Proof.Machine.execRdRazReservedLow off s
  | .rdRazReservedHigh off => Sys2Proof.Machine.execRdRazReservedHigh off s
  -- host writes (41_host.md)
  | .wrIgnoredReadOnly off wdata => Sys2Proof.Machine.execWrIgnoredReadOnly off wdata s
  | .wrReverse wdata => Sys2Proof.Machine.execWrReverse wdata s
  | .wrInit wdata => Sys2Proof.Machine.execWrInit wdata s
  | .wrIgnoredReservedLow off wdata => Sys2Proof.Machine.execWrIgnoredReservedLow off wdata s
  | .wrIgnoredReservedHigh off wdata => Sys2Proof.Machine.execWrIgnoredReservedHigh off wdata s
  -- edge events (40_edge.md)
  | .edgeA => Sys2Proof.Machine.execEdgeA s
  | .edgeB => Sys2Proof.Machine.execEdgeB s
  | .edgeAB => Sys2Proof.Machine.execEdgeAB s

end Sys2Proof.Machine
end

