-- ==== Sys2Proof/Machine/Step.lean ====
section
/-! DEFINITION. One step: the next delivered transaction, applied whole (00_scope.md R6, R13). With nothing delivered
the machine stays as it is (log 3). -/

namespace Sys2Proof.Machine

/-- One step of the machine. -/
def step (s : State) : Host.Outcome State Fault Refusal :=
  match fetch s with
  | .idle => .next s
  | .reset t => .next (resetTransaction t)
  | .run i t => exec i t
  | .refuse r => .refused r

/-- `s` with an instruction, its bits numbered as the opcode table numbers them, as the next transaction to be delivered
(log 2, log 8). -/
def State.withFetchWord (s : State) (nbits w : Nat) : State :=
  deliverWord (tableTW nbits w) (tableOperand nbits w) s

end Sys2Proof.Machine
end

