-- ==== Sys2Proof/Machine/Listing.lean ====
section
/-! DEFINITION. The transaction listing of 30_encoding.md R68 and the pseudo-instructions of R69, as the requests they
stand for. -/

namespace Sys2Proof.Machine

/-- The offset of a listing's register operand (20_memory.md R38); a number is allowed for 0x6 to 0xF only
(30_encoding.md R68). -/
def listingOffset : ListingReg → Option Offset
  | .count => some 0x0
  | .oldCount => some 0x1
  | .motion => some 0x2
  | .status => some 0x3
  | .reverse => some 0x4
  | .init => some 0x5
  | .reservedOffset off => if 6 ≤ off.toNat then some off else none

/-- The request one listing line stands for; none for a register operand the syntax does not allow. -/
def assemble : ListingLine → Option Request
  | .rd reg => (listingOffset reg).map fun off => .host false off 0
  | .wr reg imm => (listingOffset reg).map fun off => .host true off imm
  | .edge .a => some (.edges true false)
  | .edge .b => some (.edges false true)
  | .edge .ab => some (.edges true true)
  | .reset => some .rst

/-- The one listing line a pseudo-instruction expands to (30_encoding.md R69). -/
def expand : Pseudo → ListingLine
  | .count => .rd .count
  | .oldCount => .rd .oldCount
  | .motion => .rd .motion
  | .status => .rd .status
  | .reverse => .wr .reverse 0
  | .init => .wr .init 0

end Sys2Proof.Machine
end

