-- ==== Sys2Proof/Safety.lean ====
section
/-! DEFINITION. The terms the claims use: signed views of the counter and the snapshot, sequences of transactions, the
sum of motion deltas, which deliveries have a meaning, and the consistency invariant. -/

namespace Sys2Proof.Machine

/-- `sval_W(CNT)`. -/
def State.cntVal (s : State) : Int := sval s.cnt

/-- `sval_W(SNAP)`. -/
def State.snapVal (s : State) : Int := sval s.snap

/-- 2^W, the modulus of the counter. -/
def State.modulus (s : State) : Int := 2 ^ s.cfg.cntW

/-- 2^(W-1), one more than the greatest counter value. -/
def State.halfRange (s : State) : Int := 2 ^ (s.cfg.cntW - 1)

/-- A sequence of transactions, in order, stopping at the first that does not answer a next state. -/
def execAll : List Instr → State → Host.Outcome State Fault Refusal
  | [], s => .next s
  | i :: is, s =>
    match exec i s with
    | .next t => execAll is t
    | .fault r => .fault r
    | .refused r => .refused r

/-- The sum of the motion deltas (41_host.md R90) that the RD_MOTION transactions of a sequence classify. -/
def motionDeltas : List Instr → State → Int
  | [], _ => 0
  | i :: is, s =>
    (if i = .rdMotion then motionDelta s.cnt s.snap else 0) +
      match exec i s with
      | .next t => motionDeltas is t
      | .fault _ => 0
      | .refused _ => 0

/-- A request that spells a transaction: a strobe of 20_memory.md R35, one of the 35 well-formed words of 30_encoding.md
R61, or a bus access to one whole register of this block (20_memory.md R50). -/
def Request.admissible (cfg : Config) : Request → Bool
  | .rst => true
  | .host _ _ _ => true
  | .edges evA evB => evA || evB
  | .word tw _ =>
    decide (tw.toNat < 0x10 ∨ (0x40 ≤ tw.toNat ∧ tw.toNat < 0x50) ∨ (0x81 ≤ tw.toNat ∧ tw.toNat ≤ 0x83))
  | .bus _ addr nbytes _ =>
    decide (nbytes = 4 ∧ cfg.qdecBase ≤ addr ∧ addr < cfg.qdecBase + 64 ∧ (addr - cfg.qdecBase) % 4 = 0)

/-- What one delivery does to the machine, the list of deliveries aside: its line levels on the inputs, then its
transaction; nothing where it spells none. -/
def applyDelivery (s : State) (d : Delivery) : State :=
  match formTransaction s.cfg d.req with
  | .ok .reset => resetTransaction { s with lineA := d.lineA, lineB := d.lineB }
  | .ok (.word tw wdata) =>
    match decode tw wdata with
    | .ok i =>
      match exec i { s with lineA := d.lineA, lineB := d.lineB } with
      | .next t => t
      | .fault _ => s
      | .refused _ => s
    | .error _ => s
  | .error _ => s

/-- What holds of every state a run from RESET reaches (10_state.md R30; 70_reset_and_hazards.md R118; 41_host.md R93):
CFG_ERR excludes ARMED; ARMED needs both lines capable and CFG_ERR needs one that is not; NEW_RD is the stored levels
composed under one of the two orientations; and before initialization nothing has been counted or seeded. -/
abbrev State.Consistent (s : State) : Prop :=
  (s.cfgErr = true → s.armed = false) ∧
  (s.armed = true → s.cfg.edgeCapA = true ∧ s.cfg.edgeCapB = true) ∧
  (s.cfgErr = true → s.cfg.edgeCapA = false ∨ s.cfg.edgeCapB = false) ∧
  (s.newRd = compose s.lvlA s.lvlB false ∨ s.newRd = compose s.lvlA s.lvlB true) ∧
  (s.armed = false →
    s.lvlA = false ∧ s.lvlB = false ∧ s.oldRd = 0 ∧ s.newRd = 0 ∧ s.cnt = 0 ∧ s.snap = 0)

/-- A safe run: `n` steps that all answer a next state. -/
abbrev SafeFor (n : Nat) (s : State) : Prop := ∃ t, Host.Core.run core n s = .next t

end Sys2Proof.Machine
end

