-- ==== Sys2Proof/Certificates/Slice0/Obligations.lean ====
section
/-! DEFINITION. The statements about QDEC for the provers. Each docstring names the rule of spec/ it formalises. A statement
that gives a transaction's next state as an equality says its frame too: every field not written in the record update
keeps its value. QDEC has no memory (20_memory.md R37), so no frame speaks of any. Where a rule carries the spec's mark
"[decision: D…]" the docstring names the decision. -/

open Sys2Proof Sys2Proof.Machine

/-! ## Encoding -/

/-- Decode and encode agree (30_encoding.md R57, R58, R61): a well-formed transaction is read back from its own words,
with every operand, and formats HR and EV do not look at what is presented as an operand. -/
def Obligations.DecodeOfEncodeReturnsTheInstruction : Prop :=
  ∀ (i : Instr) (presented : Word), i.wf = true → decode (encode i).1 ((encode i).2.getD presented) = .ok i

/-- The other direction: whatever word decodes is the encoding of a well-formed transaction, with WDATA exactly in format
HW (R58). -/
def Obligations.DecodedWordsEncodeBack : Prop :=
  ∀ (tw : TW) (wdata : Word) (i : Instr), decode tw wdata = .ok i →
    i.wf = true ∧ (encode i).1 = tw ∧ (encode i).2 = if i.format = .hw then some wdata else none

/-- The opcode map of R61 by the number of the word, what is refused and under which name included, and its count of
35 well-formed words of 256. -/
def Obligations.DecoderFollowsTheOpcodeMap : Prop :=
  (∀ (tw : TW) (wdata : Word),
    decode tw wdata =
      if tw.toNat / 16 % 4 ≠ 0 then .error .zNonzero
      else if tw.toNat = 0x00 then .ok .rdCount
      else if tw.toNat = 0x01 then .ok .rdOldCount
      else if tw.toNat = 0x02 then .ok .rdMotion
      else if tw.toNat = 0x03 then .ok .rdStatus
      else if tw.toNat ≤ 0x05 then .ok (.rdRazCommand (BitVec.ofNat 4 tw.toNat))
      else if tw.toNat ≤ 0x07 then .ok (.rdRazReservedLow (BitVec.ofNat 4 tw.toNat))
      else if tw.toNat ≤ 0x0F then .ok (.rdRazReservedHigh (BitVec.ofNat 4 tw.toNat))
      else if tw.toNat ≤ 0x43 then .ok (.wrIgnoredReadOnly (BitVec.ofNat 4 tw.toNat) wdata)
      else if tw.toNat = 0x44 then .ok (.wrReverse wdata)
      else if tw.toNat = 0x45 then .ok (.wrInit wdata)
      else if tw.toNat ≤ 0x47 then .ok (.wrIgnoredReservedLow (BitVec.ofNat 4 tw.toNat) wdata)
      else if tw.toNat ≤ 0x4F then .ok (.wrIgnoredReservedHigh (BitVec.ofNat 4 tw.toNat) wdata)
      else if tw.toNat = 0x80 then .error .edgeNone
      else if tw.toNat = 0x81 then .ok .edgeA
      else if tw.toNat = 0x82 then .ok .edgeB
      else if tw.toNat = 0x83 then .ok .edgeAB
      else if tw.toNat ≤ 0x8F then .error .edgeSelHigh
      else .error .kindReserved) ∧
  ∀ wdata : Word, ((List.range 256).filter fun n => (decode (BitVec.ofNat 8 n) wdata).isOk).length = 35

/-- The rows of opcode_table.json decide decoding: no word lies in two rows, and a word decodes exactly when it lies in
one, to an instruction of that row. -/
def Obligations.OpcodeTableRowsDecideDecoding : Prop :=
  (∀ (tw : TW) (j k : Nat) (r q : OpcodeRow), opcodeRows[j]? = some r → opcodeRows[k]? = some q →
    r.hits tw = true → q.hits tw = true → j = k) ∧
  ∀ (tw : TW) (wdata : Word),
    opcodeRows.findIdx? (fun r => r.hits tw) = (decode tw wdata).toOption.map Instr.rowIndex

/-- R59: exactly the words of its classes (a) to (d) spell no transaction, the model refuses each where it is delivered,
and the interface of R35 cannot form one (the spec's decision D26). That such a word can be delivered is the model's (log 7). -/
def Obligations.IllFormedWordsAreRefused : Prop :=
  (∀ (tw : TW) (wdata : Word), (∃ why, decode tw wdata = .error why) ↔
    (0xC0 ≤ tw.toNat ∨
     (tw.toNat / 16 % 4 ≠ 0 ∧ tw.toNat / 64 ≤ 2) ∨
     (tw.toNat / 64 = 2 ∧ tw.toNat / 4 % 4 ≠ 0) ∨
     (tw.toNat / 64 = 2 ∧ tw.toNat % 4 = 0))) ∧
  (∀ (s : State) (la lb : Bool) (tw : TW) (wdata : Word) (rest : List Delivery) (why : Reject),
    s.pending = ⟨la, lb, .word tw wdata⟩ :: rest → decode tw wdata = .error why →
      step s = .refused (.illFormedWord why)) ∧
  (∀ (we : Bool) (off : Offset) (wdata : Word), ∃ i, decode (hostWord we off) wdata = .ok i) ∧
  (∀ (evA evB : Bool) (wdata : Word), (evA || evB) = true → ∃ i, decode (edgeWord evA evB) wdata = .ok i)

/-- Words written out from R57 and R61, at least one for every family: a read of COUNT, of MOTION and of reserved 0xF;
a write of COUNT, of REVERSE, of INIT and of reserved 0x4F; the three edges; and two refusals of V-DEC. -/
def Obligations.HandWrittenWordsDecode : Prop :=
  decode 0b00000000 7 = .ok .rdCount ∧ decode 0b00000010 7 = .ok .rdMotion ∧
  decode 0b00001111 7 = .ok (.rdRazReservedHigh 0xF) ∧ decode 0b01000000 7 = .ok (.wrIgnoredReadOnly 0 7) ∧
  decode 0b01000100 7 = .ok (.wrReverse 7) ∧ decode 0b01000101 7 = .ok (.wrInit 7) ∧
  decode 0b01001111 7 = .ok (.wrIgnoredReservedHigh 0xF 7) ∧ decode 0b10000001 7 = .ok .edgeA ∧
  decode 0b10000010 7 = .ok .edgeB ∧ decode 0b10000011 7 = .ok .edgeAB ∧
  decode 0b10000100 7 = .error .edgeSelHigh ∧ decode 0b11111111 7 = .error .zNonzero

/-- R58: KIND alone tells the format, a host write carries its 32-bit operand and the others none, and only a host read
answers, with one 32-bit rdata; no mode bit enters decoding, which looks at no state. -/
def Obligations.KindTellsFormatOperandAndResponse : Prop :=
  ∀ (tw : TW) (wdata : Word) (i : Instr) (s : State), decode tw wdata = .ok i →
    (tw.toNat / 64 = 0 ∧ i.format = .hr ∧ (encode i).2 = none ∧
      ∃ (t : State) (v : Word), exec i s = .next t ∧ t.rdata = some v) ∨
    (tw.toNat / 64 = 1 ∧ i.format = .hw ∧ (encode i).2 = some wdata ∧
      ∃ t : State, exec i s = .next t ∧ t.rdata = none) ∨
    (tw.toNat / 64 = 2 ∧ i.format = .ev ∧ (encode i).2 = none ∧ ∃ t : State, exec i s = .next t ∧ t.rdata = none)

/-- R69: each pseudo-instruction expands to the one listing line of R69's table, whose transaction word is the one that
table gives (the spec's decision D3). The listing as data, with 0 where a read's strobe has h_wdata, is the model's
(log 14). -/
def Obligations.PseudoInstructionsExpandToTheirWords : Prop :=
  ([Pseudo.count, .oldCount, .motion, .status, .reverse, .init].map expand =
    [.rd .count, .rd .oldCount, .rd .motion, .rd .status, .wr .reverse 0, .wr .init 0]) ∧
  ∀ cfg : Config,
    ([Pseudo.count, .oldCount, .motion, .status, .reverse, .init].map fun p =>
      (assemble (expand p)).map (formTransaction cfg)) =
    [some (.ok (.word 0x00 0)), some (.ok (.word 0x01 0)), some (.ok (.word 0x02 0)), some (.ok (.word 0x03 0)),
     some (.ok (.word 0x44 0)), some (.ok (.word 0x45 0))]

/-- R8, 93_implementation_defined.md I4: the widths 2 to 32 and no others configure a machine, with the parameters
given. -/
def Obligations.OnlyLegalWidthsConfigureAMachine : Prop :=
  ∀ (w base : Nat) (capA capB : Bool),
    (2 ≤ w ∧ w ≤ 32 → ∃ c, Config.ofParams w capA capB base = some c ∧ c.cntW = w ∧ c.edgeCapA = capA ∧
      c.edgeCapB = capB ∧ c.qdecBase = base) ∧
    (w < 2 ∨ 32 < w → Config.ofParams w capA capB base = none)

/-! ## A step -/

/-- A step runs the decoded transaction: when the next delivery is a word that decodes to `i`, the step is `exec i` with
the delivery's line levels on the inputs and the delivery taken off the front (log 2). -/
def Obligations.StepRunsTheDecodedTransaction : Prop :=
  ∀ (s : State) (la lb : Bool) (tw : TW) (wdata : Word) (rest : List Delivery) (i : Instr),
    s.pending = ⟨la, lb, .word tw wdata⟩ :: rest → decode tw wdata = .ok i →
      step s = exec i { s with lineA := la, lineB := lb, pending := rest }

/-- R35: a host strobe is the transaction of TW {0b0, h_we, 0b00, h_off}; a strobe of the edge inputs is the edge
transaction of TW {0b10, 0b00, 0b00, ev_b, ev_a}, EDGE_AB for both in one strobe; two strobes are two transactions in the
order delivered (the spec's decisions D3, D6). That the strobes stand in a list in the state is the model's (log 2). -/
def Obligations.StrobesFormTheirTransactions : Prop :=
  (∀ (s : State) (la lb we : Bool) (off : Offset) (wdata : Word) (rest : List Delivery),
    s.pending = ⟨la, lb, .host we off wdata⟩ :: rest →
      step s = step { s with pending := ⟨la, lb, .word (BitVec.ofNat 8 (64 * we.toNat + off.toNat)) wdata⟩ :: rest }) ∧
  (∀ (s : State) (la lb evA evB : Bool) (rest : List Delivery), (evA || evB) = true →
    s.pending = ⟨la, lb, .edges evA evB⟩ :: rest →
      step s = step { s with pending := ⟨la, lb, .word (BitVec.ofNat 8 (128 + 2 * evB.toNat + evA.toNat)) 0⟩ :: rest } ∧
      step s = exec (if evA && evB then .edgeAB else if evA then .edgeA else .edgeB)
        { s with lineA := la, lineB := lb, pending := rest }) ∧
  (∀ (s : State) (la lb la' lb' aFirst : Bool) (rest : List Delivery),
    s.pending = ⟨la, lb, .edges aFirst (!aFirst)⟩ :: ⟨la', lb', .edges (!aFirst) aFirst⟩ :: rest →
    ∃ t u,
      step s = .next t ∧ step t = .next u ∧ u.pending = rest ∧
      exec (if aFirst then .edgeA else .edgeB)
        { s with lineA := la, lineB := lb, pending := ⟨la', lb', .edges (!aFirst) aFirst⟩ :: rest } = .next t ∧
      exec (if aFirst then .edgeB else .edgeA) { t with lineA := la', lineB := lb', pending := rest } = .next u)

/-- 20_memory.md R50, R51, R60: a whole aligned 32-bit bus access at QDEC_BASE + 4*k is the host transaction of offset k,
any narrower, wider or misaligned access is refused, and lane 0 holds bits 7:0. That an access outside the window is refused too is the
model's own choice (log 6). -/
def Obligations.BusAccessesReachWholeRegistersOnly : Prop :=
  ∀ (s : State) (la lb we : Bool) (addr nbytes : Nat) (wdata : Word) (rest : List Delivery),
    s.pending = ⟨la, lb, .bus we addr nbytes wdata⟩ :: rest →
      (∀ k : Nat, k < 16 → nbytes = 4 → addr = s.cfg.qdecBase + 4 * k →
        step s = step { s with pending := ⟨la, lb, .host we (BitVec.ofNat 4 k) wdata⟩ :: rest }) ∧
      (nbytes ≠ 4 ∨ addr % 4 ≠ s.cfg.qdecBase % 4 → step s = .refused .busNotWholeRegister) ∧
      (nbytes = 4 ∧ addr % 4 = s.cfg.qdecBase % 4 ∧ (addr < s.cfg.qdecBase ∨ s.cfg.qdecBase + 64 ≤ addr) →
        step s = .refused .busOutsideBlock) ∧
      (∀ v : Word, v = busLane v 3 ++ busLane v 2 ++ busLane v 1 ++ busLane v 0)

/-- A delivered request answers a next state exactly when it is admissible: no well-formed transaction stops the machine
(R61, R100), and every other request does. That the ill-formed words of R59 and the bus accesses of R60 stop is the spec's;
that an edge strobe with no event stops (log 7), that a bus access outside the window stops (log 6), and that requests stand
in a list in the state (log 2) are the model's own choices. -/
def Obligations.StepCompletesExactlyOnTransactions : Prop :=
  ∀ (s : State) (d : Delivery) (rest : List Delivery), s.pending = d :: rest →
    ((∃ t, step s = .next t) ↔ d.req.admissible s.cfg = true) ∧
    ((∃ r, step s = .refused r) ↔ d.req.admissible s.cfg = false)

/-- With nothing delivered the machine stays as it is: the model's choice of log 3 (R6: the state changes only by
transactions). -/
def Obligations.NothingDeliveredChangesNothing : Prop :=
  ∀ s : State, s.pending = [] → step s = .next s

/-- Every transaction completes in one step, in the order delivered (R46, R55, R85): after k steps over deliveries that
spell transactions the state is what the first k of them do, one after another, and the rest are still to be delivered,
whatever agents they come from and however they interleave. That deliveries stand in a list in the state, which its
transactions do not look at, is the model's choice (log 2), and so is that each brings its line levels (log 5). -/
def Obligations.DeliveredTransactionsCompleteInOrder : Prop :=
  ∀ (s : State) (k : Nat), (∀ d ∈ s.pending, d.req.admissible s.cfg = true) → k ≤ s.pending.length →
    Host.Core.run core k s =
      .next { (s.pending.take k).foldl applyDelivery s with pending := s.pending.drop k }

/-- No step changes a parameter (R8), and each takes at most the front delivery. That the parameters stand in the state is
the model's choice (log 1), that RESET keeps them its inference (log 9), and that deliveries stand in a list taken from
the front its choice (log 2). -/
def Obligations.ParametersNeverChange : Prop :=
  ∀ s t : State, step s = .next t → t.cfg = s.cfg ∧ t.pending = s.pending.tail

/-! ## Reset -/

/-- R118: RESET, from every state, gives every element its reset value; then every host register reads 0, MOTION
included; whatever comes before WR_INIT leaves CNT at 0 and the edges disarmed; and the first MOTION read answers 0b00
wherever CNT is still 0. That the parameters and what is still to be delivered stay is log 9, that the inputs come with the
delivery log 5, both the model's. The reset values are R118's (CNT and
REV the source's, the others the spec's decisions D11 to D14). -/
def Obligations.ResetGivesEveryElementItsResetValue : Prop :=
  ∀ (s : State) (la lb : Bool) (rest : List Delivery), s.pending = ⟨la, lb, .rst⟩ :: rest →
    ∃ t, step s = .next t ∧
      t = { cfg := s.cfg, lvlA := false, lvlB := false, oldRd := 0, newRd := 0, cnt := 0, snap := 0, rev := false,
            armed := false, cfgErr := false, lineA := la, lineB := lb, rdata := none, pending := rest } ∧
      (∀ off : Offset, ∃ i, decode (hostWord false off) 0 = .ok i ∧ exec i t = .next { t with rdata := some 0 }) ∧
      (∀ i ∈ [Instr.edgeA, .edgeB, .edgeAB], exec i t = .next t) ∧
      (∀ (is : List Instr) (u : State), execAll is t = .next u →
        ((∀ i ∈ is, ∀ w, i ≠ .wrInit w) → u.cntVal = 0 ∧ u.armed = false) ∧
        ((∀ i ∈ is, i ≠ .rdMotion) → u.cntVal = 0 → exec .rdMotion u = .next { u with snap := u.cnt, rdata := some 0 }))

/-- The state a run starts from is the post-RESET state (R118, R119), with R8's default parameters; that QDEC_BASE, the
inputs and the deliveries hold these values there is the model's choice (log 1, log 2, log 5). -/
def Obligations.ResetStateHoldsTheResetValues : Prop :=
  State.reset =
    { cfg := { cntW := 32, edgeCapA := true, edgeCapB := true, qdecBase := 0 }, lvlA := false, lvlB := false,
      oldRd := 0b00, newRd := 0b00, cnt := 0x00000000, snap := 0x00000000, rev := false, armed := false,
      cfgErr := false, lineA := false, lineB := false, rdata := none, pending := [] }

/-- R24, R103: only RESET clears ARMED, and only a WR_INIT with both lines capable sets it (the spec's decision D13). That
both stand in a list of deliveries is the model's choice (log 2). -/
def Obligations.ArmedIsClearedOnlyByResetAndSetOnlyByInit : Prop :=
  ∀ (s t : State), step s = .next t →
    (s.armed = true → t.armed = false → ∃ d rest, s.pending = d :: rest ∧ d.req = .rst) ∧
    (s.armed = false → t.armed = true →
      s.cfg.edgeCapA = true ∧ s.cfg.edgeCapB = true ∧ ∃ d rest tw wdata w, s.pending = d :: rest ∧
        formTransaction s.cfg d.req = .ok (.word tw wdata) ∧ decode tw wdata = .ok (.wrInit w))

/-! ## Readings and the transition ROM -/

/-- R62: with REV = 0 the Reading is 2*a + b, with REV = 1 it is 2*b + a, which swaps its bits (the spec's decision
D4). -/
def Obligations.ReadingCompositionPlacesTheChannels : Prop :=
  ∀ a b : Bool,
    (compose a b false).toNat = 2 * a.toNat + b.toNat ∧ (compose a b true).toNat = 2 * b.toNat + a.toNat ∧
    (compose a b true).getLsbD 0 = (compose a b false).getLsbD 1 ∧
    (compose a b true).getLsbD 1 = (compose a b false).getLsbD 0

/-- R26, R63: the ROM looked up at old*4 + new is the source's literal, read by row old and column new. -/
def Obligations.RomHoldsTheSourceLiteral : Prop :=
  (∀ o n : Reading, (romIndex o n).toNat = o.toNat * 4 + n.toNat) ∧
  ([[(0 : Reading), 0, 0, 0], [1, 1, 1, 1], [2, 2, 2, 2], [3, 3, 3, 3]].map fun row =>
    List.zipWith (fun o n => rom (romIndex o n)) row [(0 : Reading), 1, 2, 3]) =
  [[0, -1, 1, 2], [1, 0, 2, -1], [-1, 2, 0, 1], [2, 1, -1, 0]]

/-- R28 (a) to (e), the structure the spec derives from R26: zero on the diagonal only, ±1 exactly for adjacent Readings,
+2 exactly for opposite ones, antisymmetric on adjacent pairs, and the +1 cycle 0→2→3→1→0. -/
def Obligations.RomFollowsTheGrayCodeGraph : Prop :=
  (∀ o n : Reading,
    (rom (romIndex o n) = 0 ↔ o = n) ∧
    ((rom (romIndex o n) = 1 ∨ rom (romIndex o n) = -1) ↔ (o ^^^ n = 1 ∨ o ^^^ n = 2)) ∧
    (rom (romIndex o n) = 2 ↔ o ^^^ n = 3) ∧
    (o ^^^ n = 1 ∨ o ^^^ n = 2 → rom (romIndex n o) = -rom (romIndex o n)) ∧
    (rom (romIndex o n) = 1 ↔ (o, n) ∈ [((0 : Reading), (2 : Reading)), (2, 3), (3, 1), (1, 0)]) ∧
    (rom (romIndex o n) = -1 ↔ (o, n) ∈ [((0 : Reading), (1 : Reading)), (1, 3), (3, 2), (2, 0)]))

/-- R64: every ROM entry is -1, 0, +1 or +2, and its 2-bit storage code stands for it (the spec's decision D25). -/
def Obligations.StorageCodeYieldsTheRomValues : Prop :=
  (∀ i : BitVec 4, rom i = -1 ∨ rom i = 0 ∨ rom i = 1 ∨ rom i = 2) ∧
  (∀ i : BitVec 4, stepOfCode (storageCode (rom i)) = rom i) ∧
  storageCode 0 = 0b00 ∧ storageCode 1 = 0b01 ∧ storageCode (-1) = 0b11 ∧ storageCode 2 = 0b10

/-! ## Edge transactions -/

/-- R76: EDGE_A. Armed, it toggles LVL_A, records the Readings before and after, and moves CNT by +1 when LVL_A = LVL_B
before it under REV = 0 (by -1 when they differ), the other way under REV = 1, with the wrap; nothing else changes.
Unarmed, nothing changes (the spec's decisions D4, D5, D8, D13). -/
def Obligations.EdgeATogglesItsLevelAndCounts : Prop :=
  (∀ wdata, decode 0x81 wdata = .ok .edgeA) ∧ encode .edgeA = (0x81, none) ∧
  ∀ s : State,
    (s.armed = true →
      exec .edgeA s = .next { s with
        lvlA := !s.lvlA
        oldRd := compose s.lvlA s.lvlB s.rev
        newRd := compose (!s.lvlA) s.lvlB s.rev
        cnt := wrap s.cfg.cntW (s.cntVal + if (s.lvlA == s.lvlB) != s.rev then 1 else -1)
        rdata := none }) ∧
    (s.armed = false → exec .edgeA s = .next { s with rdata := none })

/-- R77: EDGE_B, symmetric to EDGE_A: it toggles LVL_B and moves CNT by +1 when the levels differ before it under
REV = 0 (the spec's decisions D4, D5, D8, D13). -/
def Obligations.EdgeBTogglesItsLevelAndCounts : Prop :=
  (∀ wdata, decode 0x82 wdata = .ok .edgeB) ∧ encode .edgeB = (0x82, none) ∧
  ∀ s : State,
    (s.armed = true →
      exec .edgeB s = .next { s with
        lvlB := !s.lvlB
        oldRd := compose s.lvlA s.lvlB s.rev
        newRd := compose s.lvlA (!s.lvlB) s.rev
        cnt := wrap s.cfg.cntW (s.cntVal + if (s.lvlA == s.lvlB) != s.rev then -1 else 1)
        rdata := none }) ∧
    (s.armed = false → exec .edgeB s = .next { s with rdata := none })

/-- R78: EDGE_AB toggles both levels and records both Readings; CNT is never written, however many follow one another
(the spec's decision D6). -/
def Obligations.EdgeABTogglesBothAndNeverCounts : Prop :=
  (∀ wdata, decode 0x83 wdata = .ok .edgeAB) ∧ encode .edgeAB = (0x83, none) ∧
  (∀ s : State,
    (s.armed = true →
      exec .edgeAB s = .next { s with
        lvlA := !s.lvlA
        lvlB := !s.lvlB
        oldRd := compose s.lvlA s.lvlB s.rev
        newRd := compose (!s.lvlA) (!s.lvlB) s.rev
        rdata := none }) ∧
    (s.armed = false → exec .edgeAB s = .next { s with rdata := none })) ∧
  ∀ (n : Nat) (s : State), ∃ t, execAll (List.replicate n .edgeAB) s = .next t ∧ t.cntVal = s.cntVal

/-- R74, R75: an armed edge runs the steps of the edge procedure: old from the levels under the current REV, the selected levels
toggled, new under the same REV, the lookup at {old, new}, and CNT moved by a step of +1 or -1 and by no other; both
Readings and both levels are written, no flag is (the spec's decisions D4, D5, D8, D17). -/
def Obligations.ArmedEdgeRunsTheFiveSteps : Prop :=
  ∀ (s : State) (i : Instr) (eA eB : Bool), s.armed = true →
    (i, eA, eB) ∈ [(Instr.edgeA, true, false), (.edgeB, false, true), (.edgeAB, true, true)] →
      ∃ t, exec i s = .next t ∧
        t.lvlA = (s.lvlA ^^ eA) ∧ t.lvlB = (s.lvlB ^^ eB) ∧
        t.oldRd = compose s.lvlA s.lvlB s.rev ∧ t.newRd = compose t.lvlA t.lvlB s.rev ∧
        (rom (romIndex t.oldRd t.newRd) ∈ [1, -1] →
          t.cntVal = (s.cntVal + rom (romIndex t.oldRd t.newRd)).bmod (2 ^ s.cfg.cntW)) ∧
        (rom (romIndex t.oldRd t.newRd) ∈ [0, 2] → t.cntVal = s.cntVal) ∧
        t.rev = s.rev ∧ t.armed = s.armed ∧ t.cfgErr = s.cfgErr ∧ t.snapVal = s.snapVal

/-- R79: while ARMED = 0 any sequence of edges is accepted and changes no state (the spec's decision D13). -/
def Obligations.UnarmedEdgesChangeNothing : Prop :=
  ∀ (s : State) (i : Instr) (is : List Instr), s.armed = false →
    (∀ j ∈ i :: is, j = .edgeA ∨ j = .edgeB ∨ j = .edgeAB) →
      execAll (i :: is) s = .next { s with rdata := none }

/-- R80, derived by the spec from R71 to R74 and R28: every armed single edge looks up +1 or -1 and so changes CNT by one
and not by nothing; EDGE_AB looks up +2; no edge looks up a diagonal entry. -/
def Obligations.EverySingleEdgeChangesTheCountByOne : Prop :=
  ∀ (s t : State) (i : Instr), s.armed = true → exec i s = .next t →
    (i = .edgeA ∨ i = .edgeB →
      (rom (romIndex t.oldRd t.newRd) = 1 ∨ rom (romIndex t.oldRd t.newRd) = -1) ∧
      (t.cntVal - s.cntVal - rom (romIndex t.oldRd t.newRd)) % s.modulus = 0 ∧ t.cntVal ≠ s.cntVal) ∧
    (i = .edgeAB → rom (romIndex t.oldRd t.newRd) = 2 ∧ t.cntVal = s.cntVal)

/-- R21: the counter moves by one inside its range and wraps at both ends, 2^(W-1)-1 plus 1 giving -2^(W-1) and the other
way; no other transaction writes it but RESET, which writes 0 (the spec's decision D8). -/
def Obligations.CounterWrapsAndHasNoOtherWriter : Prop :=
  (∀ (s t : State) (i : Instr), s.armed = true → i = .edgeA ∨ i = .edgeB → exec i s = .next t →
    -s.halfRange ≤ s.cntVal ∧ s.cntVal < s.halfRange ∧
    (rom (romIndex t.oldRd t.newRd) = 1 →
      t.cntVal = if s.cntVal = s.halfRange - 1 then -s.halfRange else s.cntVal + 1) ∧
    (rom (romIndex t.oldRd t.newRd) = -1 →
      t.cntVal = if s.cntVal = -s.halfRange then s.halfRange - 1 else s.cntVal - 1)) ∧
  (∀ (s t : State) (i : Instr), exec i s = .next t → t.cntVal ≠ s.cntVal → i = .edgeA ∨ i = .edgeB) ∧
  (∀ (s t : State) (d : Delivery) (rest : List Delivery), s.pending = d :: rest → d.req = .rst →
    step s = .next t → t.cntVal = 0)

/-- R81, derived by the spec: from both levels low and REV = 0, the order A, B, A, B counts +4 and the order B, A, B, A
counts -4, each back at Reading 0; only the last edge stays on record. -/
def Obligations.QuadratureOrderGivesTheDirection : Prop :=
  ∀ s : State, s.armed = true → s.rev = false → s.lvlA = false → s.lvlB = false →
    execAll [.edgeA, .edgeB, .edgeA, .edgeB] s =
      .next { s with oldRd := 1, newRd := 0, cnt := wrap s.cfg.cntW (s.cntVal + 4), rdata := none } ∧
    execAll [.edgeB, .edgeA, .edgeB, .edgeA] s =
      .next { s with oldRd := 2, newRd := 0, cnt := wrap s.cfg.cntW (s.cntVal - 4), rdata := none }

/-- R82, derived by the spec from R62, R72 and R28 (d): a replayed edge sequence that changed CNT by N changes it by -N
when a WR_REVERSE comes first, from the same levels whatever they are, coalesced edges included; the levels end the
same. -/
def Obligations.ReplayAfterReverseNegatesTheCount : Prop :=
  ∀ (s t u : State) (wdata : Word) (es : List Instr),
    (∀ e ∈ es, e = .edgeA ∨ e = .edgeB ∨ e = .edgeAB) →
    execAll es s = .next t → execAll (.wrReverse wdata :: es) s = .next u →
      u.lvlA = t.lvlA ∧ u.lvlB = t.lvlB ∧ u.rev = !t.rev ∧
      ((u.cntVal - s.cntVal) + (t.cntVal - s.cntVal)) % s.modulus = 0

/-- R83, derived by the spec from R80 and R81: a sequence of single edges that returns both levels to where they were
changes CNT by a multiple of 4 modulo 2^W. -/
def Obligations.ClosedPathsCountMultiplesOfFour : Prop :=
  ∀ (s t : State) (es : List Instr), s.armed = true → (∀ e ∈ es, e = .edgeA ∨ e = .edgeB) →
    execAll es s = .next t → t.lvlA = s.lvlA → t.lvlB = s.lvlB →
      ∃ k : Int, (t.cntVal - s.cntVal - 4 * k) % s.modulus = 0

/-- R84, derived by the spec: where the stored levels are wrong in one line, every later single edge counts with the
opposite sign and the levels stay wrong in that line; wrong in both lines, every edge counts with the right sign. -/
def Obligations.MissedEdgeInvertsLaterCounts : Prop :=
  ∀ (s t u : State) (wrongA wrongB : Bool) (es : List Instr), s.armed = true →
    (∀ e ∈ es, e = .edgeA ∨ e = .edgeB) →
    execAll es s = .next t →
    execAll es { s with lvlA := s.lvlA ^^ wrongA, lvlB := s.lvlB ^^ wrongB } = .next u →
      u.lvlA = (t.lvlA ^^ wrongA) ∧ u.lvlB = (t.lvlB ^^ wrongB) ∧
      ((wrongA != wrongB) = true → ((u.cntVal - s.cntVal) + (t.cntVal - s.cntVal)) % s.modulus = 0) ∧
      ((wrongA != wrongB) = false → u.cntVal = t.cntVal)

/-- R106, derived by the spec from R76 to R78: both lines rising from (0, 0) under REV = 0 counts 0, +2 or -2 by the form
the platform delivers it in, and the levels end (1, 1) in all three. -/
def Obligations.SimultaneousChangeCountsByDeliveryForm : Prop :=
  ∀ s : State, s.armed = true → s.rev = false → s.lvlA = false → s.lvlB = false →
    (∃ t, execAll [.edgeAB] s = .next t ∧ t.lvlA = true ∧ t.lvlB = true ∧ t.cntVal = s.cntVal) ∧
    (∃ t, execAll [.edgeA, .edgeB] s = .next t ∧ t.lvlA = true ∧ t.lvlB = true ∧
      (t.cntVal - s.cntVal - 2) % s.modulus = 0) ∧
    (∃ t, execAll [.edgeB, .edgeA] s = .next t ∧ t.lvlA = true ∧ t.lvlB = true ∧
      (t.cntVal - s.cntVal + 2) % s.modulus = 0)

/-- R17: each level is written only by its own channel's edges, by WR_INIT and by RESET; an armed edge on the channel does
toggle it. (That no host transaction reads a level is HiddenStateIsInvisibleToTheHost.) -/
def Obligations.LevelsAreOwnedByTheirChannel : Prop :=
  ∀ s t : State,
    (∀ i, exec i s = .next t →
      (t.lvlA ≠ s.lvlA → i = .edgeA ∨ i = .edgeAB ∨ ∃ w, i = .wrInit w) ∧
      (t.lvlB ≠ s.lvlB → i = .edgeB ∨ i = .edgeAB ∨ ∃ w, i = .wrInit w) ∧
      (s.armed = true → i = .edgeA ∨ i = .edgeAB → t.lvlA = !s.lvlA) ∧
      (s.armed = true → i = .edgeB ∨ i = .edgeAB → t.lvlB = !s.lvlB))

/-- R15's "written by" column (R30 (a)): for every transaction, an element that changes is one the table lets it write.
That the parameters, the inputs and the deliveries are fields of the state, and written by no transaction, is the model's
(log 1, log 5, log 2). RESET, which is no transaction word, is ResetGivesEveryElementItsResetValue. -/
def Obligations.EachElementHasOnlyItsWriters : Prop :=
  ∀ (i : Instr) (s t : State), exec i s = .next t →
    (t.lvlA ≠ s.lvlA → i = .edgeA ∨ i = .edgeAB ∨ ∃ w, i = .wrInit w) ∧
    (t.lvlB ≠ s.lvlB → i = .edgeB ∨ i = .edgeAB ∨ ∃ w, i = .wrInit w) ∧
    (t.oldRd ≠ s.oldRd ∨ t.newRd ≠ s.newRd → i.format = .ev ∨ ∃ w, i = .wrInit w) ∧
    (t.cntVal ≠ s.cntVal → i.format = .ev) ∧
    (t.snapVal ≠ s.snapVal → i = .rdMotion) ∧
    (t.rev ≠ s.rev → ∃ w, i = .wrReverse w) ∧
    (t.armed ≠ s.armed ∨ t.cfgErr ≠ s.cfgErr → ∃ w, i = .wrInit w) ∧
    t.cfg = s.cfg ∧ t.lineA = s.lineA ∧ t.lineB = s.lineB ∧ t.pending = s.pending

/-- R30 (b) and (c), derived by the spec: after an armed edge OLD_RD and NEW_RD differ in exactly the toggled channels'
bits, placed by REV; and NEW_RD stays the composition of the stored levels as long as no WR_REVERSE comes. -/
def Obligations.ReadingsRecordTheLastEdge : Prop :=
  (∀ (s t : State), s.armed = true →
    (exec .edgeA s = .next t → t.oldRd ^^^ t.newRd = if s.rev then 0b01 else 0b10) ∧
    (exec .edgeB s = .next t → t.oldRd ^^^ t.newRd = if s.rev then 0b10 else 0b01) ∧
    (exec .edgeAB s = .next t → t.oldRd ^^^ t.newRd = 0b11)) ∧
  ∀ (s t : State) (is : List Instr), s.armed = true → s.newRd = compose s.lvlA s.lvlB s.rev →
    (∀ i ∈ is, ∀ w, i ≠ .wrReverse w) → execAll is s = .next t → t.newRd = compose t.lvlA t.lvlB t.rev

/-! ## Host transactions -/

/-- R87: RD_COUNT answers CNT sign-extended to 32 bits (the same signed value; bits 31:W copy the sign bit) and changes
nothing else; a second one with no edge in between answers the same (the spec's decision D30). -/
def Obligations.ReadOfCountAnswersTheCounter : Prop :=
  (∀ wdata, decode 0x00 wdata = .ok .rdCount) ∧ encode .rdCount = (0x00, none) ∧
  ∀ s : State, ∃ v : Word, exec .rdCount s = .next { s with rdata := some v } ∧ v.toInt = s.cntVal ∧
    (∀ k, s.cfg.cntW ≤ k → k < 32 → v.getLsbD k = s.cnt.getLsbD (s.cfg.cntW - 1)) ∧
    ∀ (is : List Instr) (t : State), (∀ i ∈ is, i.format ≠ .ev) → execAll (.rdCount :: is) s = .next t →
      exec .rdCount t = .next { t with rdata := some v }

/-- R88: RD_OLD_COUNT answers SNAP sign-extended to 32 bits, runs no classifier and changes nothing else; after RESET it
answers 0 until an RD_MOTION comes (the spec's decisions D11, D30). -/
def Obligations.ReadOfOldCountAnswersTheSnapshot : Prop :=
  (∀ wdata, decode 0x01 wdata = .ok .rdOldCount) ∧ encode .rdOldCount = (0x01, none) ∧
  ∀ s : State, ∃ v : Word, exec .rdOldCount s = .next { s with rdata := some v } ∧ v.toInt = s.snapVal ∧
    ∀ (is : List Instr) (t : State), (∀ i ∈ is, i ≠ .rdMotion) →
      execAll is (resetTransaction s) = .next t → exec .rdOldCount t = .next { t with rdata := some 0 }

/-- R89: RD_MOTION classifies the wrapped difference of CNT and SNAP, answers 1 for forward, 3 for backward and 0 for
stationary, and moves SNAP to the one value of CNT it sampled; nothing else changes (the spec's decisions D9, D10). -/
def Obligations.ReadOfMotionClassifiesAndMovesTheSnapshot : Prop :=
  (∀ wdata, decode 0x02 wdata = .ok .rdMotion) ∧ encode .rdMotion = (0x02, none) ∧
  ∀ s : State, ∃ v : Word, exec .rdMotion s = .next { s with snap := s.cnt, rdata := some v } ∧
    (0 < (s.cntVal - s.snapVal).bmod (2 ^ s.cfg.cntW) → v = 0x00000001) ∧
    ((s.cntVal - s.snapVal).bmod (2 ^ s.cfg.cntW) < 0 → v = 0x00000003) ∧
    ((s.cntVal - s.snapVal).bmod (2 ^ s.cfg.cntW) = 0 → v = 0x00000000)

/-- R90: the delta is the difference of CNT and SNAP wrapped to W bits, for every pair; so it lies in
-2^(W-1) … 2^(W-1)-1, and it is the true net movement whenever that is strictly between -2^(W-1) and +2^(W-1), even if CNT
wrapped in between (the spec's decision D9). -/
def Obligations.MotionDeltaIsTheTrueMovementWithinRange : Prop :=
  ∀ s : State,
    motionDelta s.cnt s.snap = (s.cntVal - s.snapVal).bmod (2 ^ s.cfg.cntW) ∧
    -s.halfRange ≤ motionDelta s.cnt s.snap ∧ motionDelta s.cnt s.snap < s.halfRange ∧
    ∀ n : Int, -s.halfRange < n → n < s.halfRange → s.cnt = wrap s.cfg.cntW (s.snapVal + n) →
      motionDelta s.cnt s.snap = n

/-- R91: RD_STATUS answers REV in bit 0, ARMED in bit 1, CFG_ERR in bit 2 and 0 above, and changes nothing else; in a
consistent state it never answers bits 1 and 2 both set, and from the reset values it answers 0 (the spec's decisions D2,
D14). -/
def Obligations.ReadOfStatusAnswersTheFlags : Prop :=
  (∀ wdata, decode 0x03 wdata = .ok .rdStatus) ∧ encode .rdStatus = (0x03, none) ∧
  ∀ s : State, ∃ v : Word, exec .rdStatus s = .next { s with rdata := some v } ∧
    v.toNat = 4 * s.cfgErr.toNat + 2 * s.armed.toNat + s.rev.toNat ∧
    (s.Consistent → ¬(v.getLsbD 1 = true ∧ v.getLsbD 2 = true))

/-- R92: WR_REVERSE toggles REV and nothing else, whatever ARMED is and whatever is written, and two cancel; the first
armed single edge after it composes both Readings under the new REV and counts with the opposite sign (the spec's decisions
D5, D16). -/
def Obligations.ReverseTogglesOnlyTheOrientation : Prop :=
  (∀ wdata, decode 0x44 wdata = .ok (.wrReverse wdata)) ∧
  (∀ wdata, encode (.wrReverse wdata) = (0x44, some wdata)) ∧
  ∀ (s : State) (wdata wdata' : Word),
    exec (.wrReverse wdata) s = .next { s with rev := !s.rev, rdata := none } ∧
    execAll [.wrReverse wdata, .wrReverse wdata'] s = .next { s with rdata := none } ∧
    (s.armed = true → ∀ e ∈ [Instr.edgeA, .edgeB], ∃ t u, exec e s = .next t ∧ execAll [.wrReverse wdata, e] s = .next u ∧
      u.oldRd = compose s.lvlA s.lvlB (!s.rev) ∧ u.newRd = compose u.lvlA u.lvlB (!s.rev) ∧
      u.lvlA = t.lvlA ∧ u.lvlB = t.lvlB ∧
      rom (romIndex u.oldRd u.newRd) = -rom (romIndex t.oldRd t.newRd))

/-- R93: WR_INIT has no effect while armed; with both lines capable it seeds the levels from the lines and both Readings
with their composition, sets ARMED and clears CFG_ERR; otherwise it only sets CFG_ERR. It never writes CNT, SNAP or REV
and ignores WDATA (the spec's decisions D13, D14, D32). -/
def Obligations.InitSeedsAndArmsOrReportsTheConfigurationError : Prop :=
  (∀ wdata, decode 0x45 wdata = .ok (.wrInit wdata)) ∧ (∀ wdata, encode (.wrInit wdata) = (0x45, some wdata)) ∧
  ∀ (s : State) (wdata : Word),
    (s.armed = true → exec (.wrInit wdata) s = .next { s with rdata := none }) ∧
    (s.armed = false → s.cfg.edgeCapA = true → s.cfg.edgeCapB = true →
      exec (.wrInit wdata) s = .next { s with
        lvlA := s.lineA
        lvlB := s.lineB
        oldRd := compose s.lineA s.lineB s.rev
        newRd := compose s.lineA s.lineB s.rev
        armed := true
        cfgErr := false
        rdata := none }) ∧
    (s.armed = false → s.cfg.edgeCapA = false ∨ s.cfg.edgeCapB = false →
      exec (.wrInit wdata) s = .next { s with cfgErr := true, rdata := none })

/-- R94: a read of a command register or of a reserved offset answers 0 and changes nothing: no toggle, no
initialization (the spec's decision D15). -/
def Obligations.ReadsOfCommandAndReservedOffsetsAnswerZero : Prop :=
  (∀ (tw : TW) (wdata : Word) (s : State), 0x04 ≤ tw.toNat → tw.toNat ≤ 0x0F →
    ∃ i, decode tw wdata = .ok i ∧ (encode i).1 = tw ∧ exec i s = .next { s with rdata := some 0 }) ∧
  ∀ (off : Offset) (s : State),
    exec (.rdRazCommand off) s = .next { s with rdata := some 0 } ∧
    exec (.rdRazReservedLow off) s = .next { s with rdata := some 0 } ∧
    exec (.rdRazReservedHigh off) s = .next { s with rdata := some 0 }

/-- R95: a write of a read-only register or of a reserved offset changes nothing, whatever is written (the spec's decision
D15). -/
def Obligations.WritesOfReadOnlyAndReservedOffsetsAreIgnored : Prop :=
  (∀ (tw : TW) (wdata : Word) (s : State),
    (0x40 ≤ tw.toNat ∧ tw.toNat ≤ 0x43) ∨ (0x46 ≤ tw.toNat ∧ tw.toNat ≤ 0x4F) →
      ∃ i, decode tw wdata = .ok i ∧ (encode i).1 = tw ∧ exec i s = .next { s with rdata := none }) ∧
  ∀ (off : Offset) (wdata : Word) (s : State),
    exec (.wrIgnoredReadOnly off wdata) s = .next { s with rdata := none } ∧
    exec (.wrIgnoredReservedLow off wdata) s = .next { s with rdata := none } ∧
    exec (.wrIgnoredReservedHigh off wdata) s = .next { s with rdata := none }

/-- R38: the register map, offset by offset, by the words that host strobes form: what a read answers, that only MOTION's
read writes (SNAP), and what a write does, whatever its data (the spec's decisions D2, D15, D16). What the initialization
does is InitSeedsAndArmsOrReportsTheConfigurationError. -/
def Obligations.RegisterMapAnswersByOffset : Prop :=
  (∀ (s : State) (off : Offset) (wdata : Word), ∃ (i : Instr) (v : Word),
    decode (hostWord false off) wdata = .ok i ∧
    exec i s = .next { s with snap := if off = 0x2 then s.cnt else s.snap, rdata := some v } ∧
    (off = 0x0 → v.toInt = s.cntVal) ∧ (off = 0x1 → v.toInt = s.snapVal) ∧
    (off = 0x2 → v.toNat < 4 ∧ (v.setWidth 2).toInt = (motionDelta s.cnt s.snap).sign) ∧
    (off = 0x3 → v.toNat = 4 * s.cfgErr.toNat + 2 * s.armed.toNat + s.rev.toNat) ∧
    (0x4 ≤ off.toNat → v = 0x00000000)) ∧
  (∀ (s : State) (off : Offset) (wdata : Word), ∃ i : Instr,
    decode (hostWord true off) wdata = .ok i ∧
    exec i s =
      if off = 0x4 then .next { s with rev := !s.rev, rdata := none }
      else if off = 0x5 then exec (.wrInit 0) s
      else .next { s with rdata := none })

/-- R49: reads of COUNT, OLD_COUNT, STATUS and the RAZ offsets have no side effect and answer the same twice; a second
read of MOTION with no edge in between answers stationary, whatever the host does in between; two writes to REVERSE cancel;
once INIT has armed the edges no later write to it has an effect; writes elsewhere have none (the spec's decisions D14, D15). -/
def Obligations.RepeatedAccessesBehaveAsTheRegisterSays : Prop :=
  (∀ (i : Instr) (s t u : State), i.format = .hr → i ≠ .rdMotion → exec i s = .next t → exec i t = .next u →
    u = t ∧ t = { s with rdata := t.rdata }) ∧
  (∀ s : State, execAll [.rdMotion, .rdMotion] s = .next { s with snap := s.cnt, rdata := some 0 }) ∧
  (∀ (is : List Instr) (s t : State), (∀ i ∈ is, i.format ≠ .ev) → execAll (.rdMotion :: is) s = .next t →
    exec .rdMotion t = .next { t with rdata := some 0 }) ∧
  (∀ (s : State) (w w' : Word), execAll [.wrReverse w, .wrReverse w'] s = .next { s with rdata := none }) ∧
  (∀ (is : List Instr) (s t : State) (w : Word), s.armed = true → execAll is s = .next t →
    exec (.wrInit w) t = .next { t with rdata := none }) ∧
  (∀ (i : Instr) (s : State), i.format = .hw → (∀ w, i ≠ .wrReverse w) → (∀ w, i ≠ .wrInit w) →
    exec i s = .next { s with rdata := none })

/-- R97, derived by the spec from R89 and R90: over any sequence of transactions the motion deltas classified add up,
modulo 2^W, to the movement of the snapshot, so no counter movement is lost between calls. -/
def Obligations.MotionDeltasTelescope : Prop :=
  ∀ (is : List Instr) (s t : State), execAll is s = .next t →
    (motionDeltas is s - (t.snapVal - s.snapVal)) % s.modulus = 0

/-- R99, R111, derived by the spec from R87 to R95: a host strobe never forms an edge and an edge strobe never a host
transaction; no host transaction writes CNT, none but RD_MOTION moves SNAP and only to CNT, none clears ARMED, and once
armed none writes a level or a Reading. -/
def Obligations.HostCannotReachTheDecoder : Prop :=
  (∀ (we : Bool) (off : Offset) (wdata : Word) (i : Instr), decode (hostWord we off) wdata = .ok i → i.format ≠ .ev) ∧
  (∀ (evA evB : Bool) (wdata : Word) (i : Instr), decode (edgeWord evA evB) wdata = .ok i → i.format = .ev) ∧
  ∀ (i : Instr) (s t : State), i.format ≠ .ev → exec i s = .next t →
    t.cntVal = s.cntVal ∧ (t.snapVal = s.snapVal ∨ (i = .rdMotion ∧ t.snapVal = s.cntVal)) ∧
    (s.armed = true → t.armed = true ∧ t.lvlA = s.lvlA ∧ t.lvlB = s.lvlB ∧ t.oldRd = s.oldRd ∧ t.newRd = s.newRd)

/-- R19, R33: the levels and the Readings are hidden: two states that differ only in them and in the inputs answer every
sequence of host reads and of writes other than INIT alike, and still differ only in them. -/
def Obligations.HiddenStateIsInvisibleToTheHost : Prop :=
  ∀ (is : List Instr) (s t u : State) (a b la lb : Bool) (o n : Reading),
    (∀ i ∈ is, i.format ≠ .ev ∧ ∀ w, i ≠ .wrInit w) →
    execAll is s = .next t →
    execAll is { s with lvlA := a, lvlB := b, oldRd := o, newRd := n, lineA := la, lineB := lb } = .next u →
      u = { t with lvlA := a, lvlB := b, oldRd := o, newRd := n, lineA := la, lineB := lb }

/-- R67, R86: WDATA is ignored by every host write: two words that differ only in it have the same effect. -/
def Obligations.WriteDataIsIgnored : Prop :=
  ∀ (tw : TW) (wdata wdata' : Word) (i j : Instr) (s : State),
    decode tw wdata = .ok i → decode tw wdata' = .ok j → exec i s = exec j s

/-- R120: a WR_REVERSE before WR_INIT or after it leaves the same machine once an edge has come, and each order arms it
with REV toggled (the spec's decisions D5, D13). -/
def Obligations.ReverseMayComeBeforeOrAfterInit : Prop :=
  ∀ (s : State) (w v : Word) (e : Instr) (es : List Instr), s.armed = false →
    s.cfg.edgeCapA = true → s.cfg.edgeCapB = true → (e = .edgeA ∨ e = .edgeB ∨ e = .edgeAB) →
      execAll (.wrReverse w :: .wrInit v :: e :: es) s = execAll (.wrInit v :: .wrReverse w :: e :: es) s ∧
      (∃ t, execAll [.wrReverse w, .wrInit v] s = .next t ∧ t.armed = true ∧ t.rev = !s.rev ∧ t.cfgErr = false) ∧
      ∃ u, execAll [.wrInit v, .wrReverse w] s = .next u ∧ u.armed = true ∧ u.rev = !s.rev ∧ u.cfgErr = false

/-- R65, R66: the motion codes, 0b10 standing for no classification, and the names spelled as R66 spells them (the spec's
decisions D10, D34; log 11). -/
def Obligations.MotionCodesAndNames : Prop :=
  (∀ m : Motion, motionOfCode (mcode m) = some m ∧ mcode m ≠ 0b10) ∧ motionOfCode 0b10 = none ∧
  mcode .stationary = 0b00 ∧ mcode .forward = 0b01 ∧ mcode .backward = 0b11 ∧
  (motionOfCode 0b01).map motionName = some "forward" ∧
  (motionOfCode 0b11).map motionName = some "backward" ∧
  (motionOfCode 0b00).map motionName = some "stationary"

/-! ## Invariants -/

/-- The post-RESET state is consistent. -/
def Obligations.ResetIsConsistent : Prop := State.reset.Consistent

/-- R30 (d) and what R118, R93 and R79 say of the time before initialization, as one invariant: every step from a
consistent state, of whatever agent, leaves a consistent state. -/
def Obligations.EveryStepKeepsConsistency : Prop :=
  ∀ s t : State, s.Consistent → step s = .next t → t.Consistent

/-- Derived from R80 and R78: a step that leaves ARMED as it found it set keeps the parity of CNT + LVL_A + LVL_B, whatever
the transaction: single edges flip both parts, coalesced edges and host transactions flip neither. -/
def Obligations.CountParityFollowsTheLevels : Prop :=
  ∀ s t : State, s.armed = true → t.armed = true → step s = .next t →
    (t.cntVal + t.lvlA.toNat + t.lvlB.toNat) % 2 = (s.cntVal + s.lvlA.toNat + s.lvlB.toNat) % 2
end

