-- ==== Sys2Proof/Laws/Decode.lean ====
section
/-! SUPPORT. The fields of a transaction word and the disjointness of the opcode table's rows. -/

namespace Sys2Proof

/-- No word belongs to two rows of the opcode table. -/
theorem opcodeRows_disjoint :
    opcodeRows.Pairwise fun r q => r.mask &&& q.mask &&& (r.value ^^^ q.value) ≠ 0 := by decide

/-- The fields are the bits R57 names. -/
theorem fields_of_word (tw : TW) :
    (zOf tw).toNat = tw.toNat / 16 % 4 ∧ (selOf tw).toNat = tw.toNat % 16 := by
  revert tw; decide

theorem kindOf_of_word (tw : TW) :
    kindOf tw = if tw.toNat / 64 = 0 then .hostRead else if tw.toNat / 64 = 1 then .hostWrite
      else if tw.toNat / 64 = 2 then .edgeEvent else .reserved := by
  revert tw; decide

end Sys2Proof
end

