-- ==== Sys2Proof/Laws/Operands.lean ====
section
/-! SUPPORT. What the operand computations yield: wrapping in terms of `Int.bmod`, the lookups each kind of edge makes,
and the classification. -/

namespace Sys2Proof.Machine

theorem sval_wrap (w : Nat) (n : Int) : sval (wrap w n) = n.bmod (2 ^ w) := BitVec.toInt_ofInt n

theorem wrap_sval {w : Nat} (p : BitVec w) : wrap w (sval p) = p := BitVec.ofInt_toInt

/-- Congruent integers wrap to the same pattern. -/
theorem wrap_eq_of_emod_eq {w : Nat} {m n : Int} (h : m % 2 ^ w = n % 2 ^ w) : wrap w m = wrap w n := by
  apply BitVec.eq_of_toInt_eq
  have h' : m % ((2 ^ w : Nat) : Int) = n % ((2 ^ w : Nat) : Int) := by push_cast; exact h
  simp only [wrap, BitVec.toInt_ofInt, Int.bmod, h']

/-- A pattern's value differs from the integer it was wrapped from by a multiple of 2^W. -/
theorem sval_wrap_emod (w : Nat) (n : Int) : sval (wrap w n) % 2 ^ w = n % 2 ^ w := by
  have h := Int.bmod_emod (x := n) (m := 2 ^ w)
  rw [sval_wrap]
  push_cast at h
  exact h

/-- Wrapping before adding makes no difference to the wrapped sum. -/
theorem wrap_sval_wrap_add (w : Nat) (m n : Int) : wrap w (sval (wrap w m) + n) = wrap w (m + n) := by
  apply wrap_eq_of_emod_eq
  rw [Int.add_emod, sval_wrap_emod, ← Int.add_emod]

/-- A W-bit pattern's value lies in -2^(W-1) … 2^(W-1)-1 (00_scope.md R11). -/
theorem sval_bounds {w : Nat} (p : BitVec w) : -(2 : Int) ^ (w - 1) ≤ sval p ∧ sval p < (2 : Int) ^ (w - 1) :=
  ⟨BitVec.le_toInt p, BitVec.toInt_lt⟩

/-- A channel A edge looks up +1 or -1 (40_edge.md R80), by the levels before it and the orientation. -/
theorem rom_edgeA (a b rev : Bool) :
    rom (romIndex (compose a b rev) (compose (!a) b rev)) = if (a == b) != rev then 1 else -1 := by
  revert a b rev; decide

/-- A channel B edge looks up +1 or -1 (40_edge.md R80), by the levels before it and the orientation. -/
theorem rom_edgeB (a b rev : Bool) :
    rom (romIndex (compose a b rev) (compose a (!b) rev)) = if (a != b) != rev then 1 else -1 := by
  revert a b rev; decide

/-- A coalesced edge looks up +2 (40_edge.md R80). -/
theorem rom_edgeAB (a b rev : Bool) : rom (romIndex (compose a b rev) (compose (!a) (!b) rev)) = 2 := by
  revert a b rev; decide

theorem countStep_one {w : Nat} (c : BitVec w) : countStep 1 c = wrap w (sval c + 1) := rfl

theorem countStep_negOne {w : Nat} (c : BitVec w) : countStep (-1) c = wrap w (sval c + -1) := rfl

theorem countStep_two {w : Nat} (c : BitVec w) : countStep 2 c = c := rfl

/-- The classification takes exactly the sign of the delta. -/
theorem classify_cases (d : Int) :
    (0 < d ∧ classify d = .forward) ∨ (d < 0 ∧ classify d = .backward) ∨ (d = 0 ∧ classify d = .stationary) := by
  unfold classify
  split
  · exact .inl ⟨‹_›, rfl⟩
  · split
    · exact .inr (.inl ⟨‹_›, rfl⟩)
    · exact .inr (.inr ⟨by omega, rfl⟩)

end Sys2Proof.Machine
end

