-- ==== Sys2Proof/Laws/State.lean ====
section
/-! SUPPORT. One lemma per field per update of State: what each named operation makes of each field. -/

namespace Sys2Proof.Machine

@[simp] theorem respond_cfg (v : Word) (s : State) : (respond v s).cfg = s.cfg := rfl
@[simp] theorem respond_lvlA (v : Word) (s : State) : (respond v s).lvlA = s.lvlA := rfl
@[simp] theorem respond_lvlB (v : Word) (s : State) : (respond v s).lvlB = s.lvlB := rfl
@[simp] theorem respond_oldRd (v : Word) (s : State) : (respond v s).oldRd = s.oldRd := rfl
@[simp] theorem respond_newRd (v : Word) (s : State) : (respond v s).newRd = s.newRd := rfl
@[simp] theorem respond_cnt (v : Word) (s : State) : (respond v s).cnt = s.cnt := rfl
@[simp] theorem respond_snap (v : Word) (s : State) : (respond v s).snap = s.snap := rfl
@[simp] theorem respond_rev (v : Word) (s : State) : (respond v s).rev = s.rev := rfl
@[simp] theorem respond_armed (v : Word) (s : State) : (respond v s).armed = s.armed := rfl
@[simp] theorem respond_cfgErr (v : Word) (s : State) : (respond v s).cfgErr = s.cfgErr := rfl
@[simp] theorem respond_lineA (v : Word) (s : State) : (respond v s).lineA = s.lineA := rfl
@[simp] theorem respond_lineB (v : Word) (s : State) : (respond v s).lineB = s.lineB := rfl
@[simp] theorem respond_rdata (v : Word) (s : State) : (respond v s).rdata = some v := rfl
@[simp] theorem respond_pending (v : Word) (s : State) : (respond v s).pending = s.pending := rfl

@[simp] theorem quiet_cfg (s : State) : (quiet s).cfg = s.cfg := rfl
@[simp] theorem quiet_lvlA (s : State) : (quiet s).lvlA = s.lvlA := rfl
@[simp] theorem quiet_lvlB (s : State) : (quiet s).lvlB = s.lvlB := rfl
@[simp] theorem quiet_oldRd (s : State) : (quiet s).oldRd = s.oldRd := rfl
@[simp] theorem quiet_newRd (s : State) : (quiet s).newRd = s.newRd := rfl
@[simp] theorem quiet_cnt (s : State) : (quiet s).cnt = s.cnt := rfl
@[simp] theorem quiet_snap (s : State) : (quiet s).snap = s.snap := rfl
@[simp] theorem quiet_rev (s : State) : (quiet s).rev = s.rev := rfl
@[simp] theorem quiet_armed (s : State) : (quiet s).armed = s.armed := rfl
@[simp] theorem quiet_cfgErr (s : State) : (quiet s).cfgErr = s.cfgErr := rfl
@[simp] theorem quiet_lineA (s : State) : (quiet s).lineA = s.lineA := rfl
@[simp] theorem quiet_lineB (s : State) : (quiet s).lineB = s.lineB := rfl
@[simp] theorem quiet_rdata (s : State) : (quiet s).rdata = none := rfl
@[simp] theorem quiet_pending (s : State) : (quiet s).pending = s.pending := rfl

@[simp] theorem takeSnapshot_cfg (s : State) : (takeSnapshot s).cfg = s.cfg := rfl
@[simp] theorem takeSnapshot_lvlA (s : State) : (takeSnapshot s).lvlA = s.lvlA := rfl
@[simp] theorem takeSnapshot_lvlB (s : State) : (takeSnapshot s).lvlB = s.lvlB := rfl
@[simp] theorem takeSnapshot_oldRd (s : State) : (takeSnapshot s).oldRd = s.oldRd := rfl
@[simp] theorem takeSnapshot_newRd (s : State) : (takeSnapshot s).newRd = s.newRd := rfl
@[simp] theorem takeSnapshot_cnt (s : State) : (takeSnapshot s).cnt = s.cnt := rfl
@[simp] theorem takeSnapshot_snap (s : State) : (takeSnapshot s).snap = s.cnt := rfl
@[simp] theorem takeSnapshot_rev (s : State) : (takeSnapshot s).rev = s.rev := rfl
@[simp] theorem takeSnapshot_armed (s : State) : (takeSnapshot s).armed = s.armed := rfl
@[simp] theorem takeSnapshot_cfgErr (s : State) : (takeSnapshot s).cfgErr = s.cfgErr := rfl
@[simp] theorem takeSnapshot_lineA (s : State) : (takeSnapshot s).lineA = s.lineA := rfl
@[simp] theorem takeSnapshot_lineB (s : State) : (takeSnapshot s).lineB = s.lineB := rfl
@[simp] theorem takeSnapshot_rdata (s : State) : (takeSnapshot s).rdata = s.rdata := rfl
@[simp] theorem takeSnapshot_pending (s : State) : (takeSnapshot s).pending = s.pending := rfl

@[simp] theorem toggleRev_cfg (s : State) : (toggleRev s).cfg = s.cfg := rfl
@[simp] theorem toggleRev_lvlA (s : State) : (toggleRev s).lvlA = s.lvlA := rfl
@[simp] theorem toggleRev_lvlB (s : State) : (toggleRev s).lvlB = s.lvlB := rfl
@[simp] theorem toggleRev_oldRd (s : State) : (toggleRev s).oldRd = s.oldRd := rfl
@[simp] theorem toggleRev_newRd (s : State) : (toggleRev s).newRd = s.newRd := rfl
@[simp] theorem toggleRev_cnt (s : State) : (toggleRev s).cnt = s.cnt := rfl
@[simp] theorem toggleRev_snap (s : State) : (toggleRev s).snap = s.snap := rfl
@[simp] theorem toggleRev_rev (s : State) : (toggleRev s).rev = !s.rev := rfl
@[simp] theorem toggleRev_armed (s : State) : (toggleRev s).armed = s.armed := rfl
@[simp] theorem toggleRev_cfgErr (s : State) : (toggleRev s).cfgErr = s.cfgErr := rfl
@[simp] theorem toggleRev_lineA (s : State) : (toggleRev s).lineA = s.lineA := rfl
@[simp] theorem toggleRev_lineB (s : State) : (toggleRev s).lineB = s.lineB := rfl
@[simp] theorem toggleRev_rdata (s : State) : (toggleRev s).rdata = s.rdata := rfl
@[simp] theorem toggleRev_pending (s : State) : (toggleRev s).pending = s.pending := rfl

@[simp] theorem recordEdge_cfg (a b : Bool) (o n : Reading) (k : Int) (s : State) : (recordEdge a b o n k s).cfg = s.cfg := rfl
@[simp] theorem recordEdge_lvlA (a b : Bool) (o n : Reading) (k : Int) (s : State) : (recordEdge a b o n k s).lvlA = a := rfl
@[simp] theorem recordEdge_lvlB (a b : Bool) (o n : Reading) (k : Int) (s : State) : (recordEdge a b o n k s).lvlB = b := rfl
@[simp] theorem recordEdge_oldRd (a b : Bool) (o n : Reading) (k : Int) (s : State) : (recordEdge a b o n k s).oldRd = o := rfl
@[simp] theorem recordEdge_newRd (a b : Bool) (o n : Reading) (k : Int) (s : State) : (recordEdge a b o n k s).newRd = n := rfl
@[simp] theorem recordEdge_cnt (a b : Bool) (o n : Reading) (k : Int) (s : State) : (recordEdge a b o n k s).cnt = countStep k s.cnt := rfl
@[simp] theorem recordEdge_snap (a b : Bool) (o n : Reading) (k : Int) (s : State) : (recordEdge a b o n k s).snap = s.snap := rfl
@[simp] theorem recordEdge_rev (a b : Bool) (o n : Reading) (k : Int) (s : State) : (recordEdge a b o n k s).rev = s.rev := rfl
@[simp] theorem recordEdge_armed (a b : Bool) (o n : Reading) (k : Int) (s : State) : (recordEdge a b o n k s).armed = s.armed := rfl
@[simp] theorem recordEdge_cfgErr (a b : Bool) (o n : Reading) (k : Int) (s : State) : (recordEdge a b o n k s).cfgErr = s.cfgErr := rfl
@[simp] theorem recordEdge_lineA (a b : Bool) (o n : Reading) (k : Int) (s : State) : (recordEdge a b o n k s).lineA = s.lineA := rfl
@[simp] theorem recordEdge_lineB (a b : Bool) (o n : Reading) (k : Int) (s : State) : (recordEdge a b o n k s).lineB = s.lineB := rfl
@[simp] theorem recordEdge_rdata (a b : Bool) (o n : Reading) (k : Int) (s : State) : (recordEdge a b o n k s).rdata = s.rdata := rfl
@[simp] theorem recordEdge_pending (a b : Bool) (o n : Reading) (k : Int) (s : State) : (recordEdge a b o n k s).pending = s.pending := rfl

@[simp] theorem seed_cfg (s : State) : (seed s).cfg = s.cfg := rfl
@[simp] theorem seed_lvlA (s : State) : (seed s).lvlA = s.lineA := rfl
@[simp] theorem seed_lvlB (s : State) : (seed s).lvlB = s.lineB := rfl
@[simp] theorem seed_oldRd (s : State) : (seed s).oldRd = compose s.lineA s.lineB s.rev := rfl
@[simp] theorem seed_newRd (s : State) : (seed s).newRd = compose s.lineA s.lineB s.rev := rfl
@[simp] theorem seed_cnt (s : State) : (seed s).cnt = s.cnt := rfl
@[simp] theorem seed_snap (s : State) : (seed s).snap = s.snap := rfl
@[simp] theorem seed_rev (s : State) : (seed s).rev = s.rev := rfl
@[simp] theorem seed_armed (s : State) : (seed s).armed = true := rfl
@[simp] theorem seed_cfgErr (s : State) : (seed s).cfgErr = false := rfl
@[simp] theorem seed_lineA (s : State) : (seed s).lineA = s.lineA := rfl
@[simp] theorem seed_lineB (s : State) : (seed s).lineB = s.lineB := rfl
@[simp] theorem seed_rdata (s : State) : (seed s).rdata = s.rdata := rfl
@[simp] theorem seed_pending (s : State) : (seed s).pending = s.pending := rfl

@[simp] theorem markCfgErr_cfg (s : State) : (markCfgErr s).cfg = s.cfg := rfl
@[simp] theorem markCfgErr_lvlA (s : State) : (markCfgErr s).lvlA = s.lvlA := rfl
@[simp] theorem markCfgErr_lvlB (s : State) : (markCfgErr s).lvlB = s.lvlB := rfl
@[simp] theorem markCfgErr_oldRd (s : State) : (markCfgErr s).oldRd = s.oldRd := rfl
@[simp] theorem markCfgErr_newRd (s : State) : (markCfgErr s).newRd = s.newRd := rfl
@[simp] theorem markCfgErr_cnt (s : State) : (markCfgErr s).cnt = s.cnt := rfl
@[simp] theorem markCfgErr_snap (s : State) : (markCfgErr s).snap = s.snap := rfl
@[simp] theorem markCfgErr_rev (s : State) : (markCfgErr s).rev = s.rev := rfl
@[simp] theorem markCfgErr_armed (s : State) : (markCfgErr s).armed = s.armed := rfl
@[simp] theorem markCfgErr_cfgErr (s : State) : (markCfgErr s).cfgErr = true := rfl
@[simp] theorem markCfgErr_lineA (s : State) : (markCfgErr s).lineA = s.lineA := rfl
@[simp] theorem markCfgErr_lineB (s : State) : (markCfgErr s).lineB = s.lineB := rfl
@[simp] theorem markCfgErr_rdata (s : State) : (markCfgErr s).rdata = s.rdata := rfl
@[simp] theorem markCfgErr_pending (s : State) : (markCfgErr s).pending = s.pending := rfl

@[simp] theorem resetBlock_cfg (s : State) : (resetBlock s).cfg = s.cfg := rfl
@[simp] theorem resetBlock_lvlA (s : State) : (resetBlock s).lvlA = false := rfl
@[simp] theorem resetBlock_lvlB (s : State) : (resetBlock s).lvlB = false := rfl
@[simp] theorem resetBlock_oldRd (s : State) : (resetBlock s).oldRd = 0 := rfl
@[simp] theorem resetBlock_newRd (s : State) : (resetBlock s).newRd = 0 := rfl
@[simp] theorem resetBlock_cnt (s : State) : (resetBlock s).cnt = 0 := rfl
@[simp] theorem resetBlock_snap (s : State) : (resetBlock s).snap = 0 := rfl
@[simp] theorem resetBlock_rev (s : State) : (resetBlock s).rev = false := rfl
@[simp] theorem resetBlock_armed (s : State) : (resetBlock s).armed = false := rfl
@[simp] theorem resetBlock_cfgErr (s : State) : (resetBlock s).cfgErr = false := rfl
@[simp] theorem resetBlock_lineA (s : State) : (resetBlock s).lineA = s.lineA := rfl
@[simp] theorem resetBlock_lineB (s : State) : (resetBlock s).lineB = s.lineB := rfl
@[simp] theorem resetBlock_rdata (s : State) : (resetBlock s).rdata = s.rdata := rfl
@[simp] theorem resetBlock_pending (s : State) : (resetBlock s).pending = s.pending := rfl

@[simp] theorem accept_cfg (d : Delivery) (ds : List Delivery) (s : State) : (accept d ds s).cfg = s.cfg := rfl
@[simp] theorem accept_lvlA (d : Delivery) (ds : List Delivery) (s : State) : (accept d ds s).lvlA = s.lvlA := rfl
@[simp] theorem accept_lvlB (d : Delivery) (ds : List Delivery) (s : State) : (accept d ds s).lvlB = s.lvlB := rfl
@[simp] theorem accept_oldRd (d : Delivery) (ds : List Delivery) (s : State) : (accept d ds s).oldRd = s.oldRd := rfl
@[simp] theorem accept_newRd (d : Delivery) (ds : List Delivery) (s : State) : (accept d ds s).newRd = s.newRd := rfl
@[simp] theorem accept_cnt (d : Delivery) (ds : List Delivery) (s : State) : (accept d ds s).cnt = s.cnt := rfl
@[simp] theorem accept_snap (d : Delivery) (ds : List Delivery) (s : State) : (accept d ds s).snap = s.snap := rfl
@[simp] theorem accept_rev (d : Delivery) (ds : List Delivery) (s : State) : (accept d ds s).rev = s.rev := rfl
@[simp] theorem accept_armed (d : Delivery) (ds : List Delivery) (s : State) : (accept d ds s).armed = s.armed := rfl
@[simp] theorem accept_cfgErr (d : Delivery) (ds : List Delivery) (s : State) : (accept d ds s).cfgErr = s.cfgErr := rfl
@[simp] theorem accept_lineA (d : Delivery) (ds : List Delivery) (s : State) : (accept d ds s).lineA = d.lineA := rfl
@[simp] theorem accept_lineB (d : Delivery) (ds : List Delivery) (s : State) : (accept d ds s).lineB = d.lineB := rfl
@[simp] theorem accept_rdata (d : Delivery) (ds : List Delivery) (s : State) : (accept d ds s).rdata = s.rdata := rfl
@[simp] theorem accept_pending (d : Delivery) (ds : List Delivery) (s : State) : (accept d ds s).pending = ds := rfl

end Sys2Proof.Machine
end

