-- ==== Sys2Proof/Laws/Ops.lean ====
section
/-! SUPPORT. One lemma per shared operation that says everything it can do, and one inversion lemma for `exec` and for
`step`. -/

namespace Sys2Proof.Machine

theorem edge_unarmed {s : State} (h : s.armed = false) (eA eB : Bool) : edge eA eB s = s := by
  simp [edge, h]

/-- What an armed edge writes (40_edge.md R71). -/
theorem edge_armed {s : State} (h : s.armed = true) (eA eB : Bool) :
    edge eA eB s =
      recordEdge (s.lvlA ^^ eA) (s.lvlB ^^ eB) (compose s.lvlA s.lvlB s.rev)
        (compose (s.lvlA ^^ eA) (s.lvlB ^^ eB) s.rev)
        (rom (romIndex (compose s.lvlA s.lvlB s.rev) (compose (s.lvlA ^^ eA) (s.lvlB ^^ eB) s.rev))) s := by
  simp [edge, h]

theorem initOperation_armed {s : State} (h : s.armed = true) : initOperation s = s := by
  simp [initOperation, h]

theorem initOperation_capable {s : State} (h : s.armed = false) (hc : linesCapable s.cfg = true) :
    initOperation s = seed s := by
  simp [initOperation, h, hc]

theorem initOperation_incapable {s : State} (h : s.armed = false) (hc : linesCapable s.cfg = false) :
    initOperation s = markCfgErr s := by
  simp [initOperation, h, hc]

/-- The state each transaction leaves: `exec` as a total function on states. -/
def effect : Instr → State → State
  | .rdCount, s => respond (countValue s) s
  | .rdOldCount, s => respond (oldCountValue s) s
  | .rdMotion, s => respond (motionValue s) (takeSnapshot s)
  | .rdStatus, s => respond (statusValue s) s
  | .rdRazCommand _, s => respond 0 s
  | .rdRazReservedLow _, s => respond 0 s
  | .rdRazReservedHigh _, s => respond 0 s
  | .wrIgnoredReadOnly _ _, s => quiet s
  | .wrReverse _, s => quiet (toggleRev s)
  | .wrInit _, s => quiet (initOperation s)
  | .wrIgnoredReservedLow _ _, s => quiet s
  | .wrIgnoredReservedHigh _ _, s => quiet s
  | .edgeA, s => quiet (edge true false s)
  | .edgeB, s => quiet (edge false true s)
  | .edgeAB, s => quiet (edge true true s)

/-- Every transaction answers a next state, and which (20_memory.md R55). -/
theorem exec_eq_effect (i : Instr) (s : State) : exec i s = .next (effect i s) := by
  cases i <;> rfl

/-- Inversion of `exec`. -/
theorem exec_next_iff {i : Instr} {s t : State} : exec i s = .next t ↔ t = effect i s := by
  rw [exec_eq_effect]
  constructor
  · intro h; injection h with h; exact h.symm
  · rintro rfl; rfl

theorem execAll_nil (s : State) : execAll [] s = .next s := rfl

theorem execAll_cons (i : Instr) (is : List Instr) (s : State) : execAll (i :: is) s = execAll is (effect i s) := by
  simp [execAll, exec_eq_effect]

/-- A sequence leaves the fold of its effects. -/
theorem execAll_eq_foldl (is : List Instr) (s : State) :
    execAll is s = .next (is.foldl (fun t i => effect i t) s) := by
  induction is generalizing s with
  | nil => rfl
  | cons i is ih => rw [execAll_cons, ih]; rfl

/-- What every transaction of a sequence keeps, the sequence keeps. -/
theorem execAll_keeps (Q : State → Prop) (P : Instr → Prop) (keep : ∀ i s, P i → Q s → Q (effect i s)) :
    ∀ (is : List Instr) (s t : State), (∀ i ∈ is, P i) → Q s → execAll is s = .next t → Q t
  | [], s, t, _, hs, h => by rw [execAll_nil] at h; injection h with h; exact h ▸ hs
  | i :: is, s, t, hp, hs, h => by
    rw [execAll_cons] at h
    exact execAll_keeps Q P keep is _ t (fun j hj => hp j (by simp [hj])) (keep i s (hp i (by simp)) hs) h

/-- Only RD_MOTION writes SNAP (10_state.md R15). -/
theorem effect_snapVal {i : Instr} (hi : i ≠ .rdMotion) (s : State) : (effect i s).snapVal = s.snapVal := by
  cases i
  case rdMotion => exact absurd rfl hi
  all_goals simp only [effect, edge, initOperation]; repeat' split
  all_goals rfl

/-- Only an edge writes CNT (10_state.md R15). -/
theorem effect_cntVal {i : Instr} (hi : i.format ≠ .ev) (s : State) : (effect i s).cntVal = s.cntVal := by
  cases i
  case edgeA => exact absurd rfl hi
  case edgeB => exact absurd rfl hi
  case edgeAB => exact absurd rfl hi
  all_goals simp only [effect, initOperation]; repeat' split
  all_goals rfl

/-- Nothing clears ARMED (10_state.md R24). -/
theorem effect_armed {s : State} (h : s.armed = true) (i : Instr) : (effect i s).armed = true := by
  cases i <;> simp [effect, edge_armed h, initOperation_armed h, h]

/-- No transaction looks at what is still to be delivered (log 2). -/
theorem effect_setPending (i : Instr) (s : State) (ds : List Delivery) :
    effect i { s with pending := ds } = { effect i s with pending := ds } := by
  cases i <;> first | rfl | skip
  case wrInit w =>
    simp only [effect]
    rcases Bool.eq_false_or_eq_true s.armed with h | h
    · rw [initOperation_armed h, initOperation_armed (s := { s with pending := ds }) h]; rfl
    · rcases Bool.eq_false_or_eq_true (linesCapable s.cfg) with hc | hc
      · rw [initOperation_capable h hc, initOperation_capable (s := { s with pending := ds }) h hc]; rfl
      · rw [initOperation_incapable h hc, initOperation_incapable (s := { s with pending := ds }) h hc]; rfl
  all_goals
    simp only [effect]
    rcases Bool.eq_false_or_eq_true s.armed with h | h
    · rw [edge_armed h, edge_armed (s := { s with pending := ds }) h]; rfl
    · rw [edge_unarmed h, edge_unarmed (s := { s with pending := ds }) h]; rfl

theorem applyDelivery_reset {s : State} {d : Delivery} (hf : formTransaction s.cfg d.req = .ok .reset) :
    applyDelivery s d = resetTransaction { s with lineA := d.lineA, lineB := d.lineB } := by
  simp [applyDelivery, hf]

theorem applyDelivery_word {s : State} {d : Delivery} {tw : TW} {wdata : Word} {i : Instr}
    (hf : formTransaction s.cfg d.req = .ok (.word tw wdata)) (hd : decode tw wdata = .ok i) :
    applyDelivery s d = effect i { s with lineA := d.lineA, lineB := d.lineB } := by
  simp [applyDelivery, hf, hd, exec_eq_effect]

theorem applyDelivery_none {s : State} {d : Delivery} {r : Refusal} (hf : formTransaction s.cfg d.req = .error r) :
    applyDelivery s d = s := by
  simp [applyDelivery, hf]

theorem applyDelivery_illFormed {s : State} {d : Delivery} {tw : TW} {wdata : Word} {why : Reject}
    (hf : formTransaction s.cfg d.req = .ok (.word tw wdata)) (hd : decode tw wdata = .error why) :
    applyDelivery s d = s := by
  simp [applyDelivery, hf, hd]

/-- What a delivery does does not depend on what else is to be delivered, and leaves it (log 2). -/
theorem applyDelivery_setPending (s : State) (d : Delivery) (ds : List Delivery) :
    applyDelivery { s with pending := ds } d = { applyDelivery s d with pending := ds } := by
  rcases hf : formTransaction s.cfg d.req with r | ⟨_ | ⟨tw, wdata⟩⟩
  · rw [applyDelivery_none hf, applyDelivery_none (s := { s with pending := ds }) hf]
  · rw [applyDelivery_reset hf, applyDelivery_reset (s := { s with pending := ds }) hf]; rfl
  · rcases hd : decode tw wdata with why | i
    · rw [applyDelivery_illFormed hf hd, applyDelivery_illFormed (s := { s with pending := ds }) hf hd]
    · rw [applyDelivery_word hf hd, applyDelivery_word (s := { s with pending := ds }) hf hd, ← effect_setPending]

theorem motionDeltas_cons (i : Instr) (is : List Instr) (s : State) :
    motionDeltas (i :: is) s =
      (if i = .rdMotion then motionDelta s.cnt s.snap else 0) + motionDeltas is (effect i s) := by
  simp [motionDeltas, exec_eq_effect]

theorem fetch_nil {s : State} (h : s.pending = []) : fetch s = .idle := by
  simp [fetch, h]

theorem fetch_rst {s : State} {d : Delivery} {rest : List Delivery} (h : s.pending = d :: rest) (hr : d.req = .rst) :
    fetch s = .reset (accept d rest s) := by
  simp [fetch, h, hr, formTransaction]

/-- A formed word that decodes is fetched as its transaction. -/
theorem fetch_run {s : State} {d : Delivery} {rest : List Delivery} {tw : TW} {wdata : Word} {i : Instr}
    (h : s.pending = d :: rest) (hf : formTransaction s.cfg d.req = .ok (.word tw wdata))
    (hd : decode tw wdata = .ok i) : fetch s = .run i (accept d rest s) := by
  simp [fetch, h, hf, hd]

/-- Inversion of `step`: nothing delivered, a RESET, or a transaction run on the accepted delivery. -/
theorem step_next_cases {s t : State} (h : step s = .next t) :
    (s.pending = [] ∧ t = s) ∨
    (∃ d rest, s.pending = d :: rest ∧ formTransaction s.cfg d.req = .ok .reset ∧
      t = resetTransaction (accept d rest s)) ∨
    (∃ d rest tw wdata i, s.pending = d :: rest ∧ formTransaction s.cfg d.req = .ok (.word tw wdata) ∧
      decode tw wdata = .ok i ∧ t = effect i (accept d rest s)) := by
  unfold step fetch at h
  split at h
  · rename_i hp
    split at hp
    · injection h with h; exact .inl ⟨‹_›, h.symm⟩
    · split at hp <;> first | (split at hp <;> cases hp) | cases hp
  · rename_i hp
    split at hp
    · cases hp
    · rename_i d rest hq
      split at hp
      · cases hp
      · cases hp; injection h with h; exact .inr (.inl ⟨d, rest, hq, ‹_›, h.symm⟩)
      · split at hp <;> cases hp
  · rename_i hp
    split at hp
    · cases hp
    · rename_i d rest hq
      split at hp
      · cases hp
      · cases hp
      · split at hp
        · cases hp
          exact .inr (.inr ⟨d, rest, _, _, _, hq, ‹_›, ‹_›, exec_next_iff.mp h⟩)
        · cases hp
  · cases h

/-- A step that answers a next state on a delivery does what that delivery does, and takes it off the front. -/
theorem step_next_applyDelivery {s t : State} {d : Delivery} {rest : List Delivery} (hp : s.pending = d :: rest)
    (h : step s = .next t) : t = { applyDelivery s d with pending := rest } := by
  obtain ⟨hn, -⟩ | ⟨e, es, he, hf, rfl⟩ | ⟨e, es, tw, wdata, i, he, hf, hd, rfl⟩ := step_next_cases h
  · rw [hn] at hp; cases hp
  · rw [hp] at he; cases he
    rw [applyDelivery_reset hf]; rfl
  · rw [hp] at he; cases he
    rw [applyDelivery_word hf hd, ← effect_setPending]; rfl

end Sys2Proof.Machine
end

