-- ==== Sys2Proof/Laws/PerInstr.lean ====
section
/-! SUPPORT. Families of statements made once per constructor of `Instr`. -/

namespace Sys2Proof.Laws.RowMatch

/-- The encoded word lies in the instruction's own row of the opcode table (30_encoding.md R61), and it has the operand
WDATA exactly in format HW (R58). -/
def Statement (i : Instr) : Prop :=
  (∃ r, opcodeRows[i.rowIndex]? = some r ∧ r.hits (encode i).1 = true) ∧ ((encode i).2.isSome = true ↔ i.format = .hw)

/-- `rowWord` keeps the row's fixed bits, whatever the offset. -/
theorem hits_rowWord (off : Offset) :
    OpcodeRow.hits ⟨0x04, 0xFE, "RD_RAZ"⟩ (rowWord 0x04 0xFE off) = true ∧
    OpcodeRow.hits ⟨0x06, 0xFE, "RD_RAZ"⟩ (rowWord 0x06 0xFE off) = true ∧
    OpcodeRow.hits ⟨0x08, 0xF8, "RD_RAZ"⟩ (rowWord 0x08 0xF8 off) = true ∧
    OpcodeRow.hits ⟨0x40, 0xFC, "WR_IGNORED"⟩ (rowWord 0x40 0xFC off) = true ∧
    OpcodeRow.hits ⟨0x46, 0xFE, "WR_IGNORED"⟩ (rowWord 0x46 0xFE off) = true ∧
    OpcodeRow.hits ⟨0x48, 0xF8, "WR_IGNORED"⟩ (rowWord 0x48 0xF8 off) = true := by
  revert off; decide

/-- The rows without a free bit or an operand. -/
theorem hits_fixed :
    OpcodeRow.hits ⟨0x00, 0xFF, "RD_COUNT"⟩ 0x00 = true ∧ OpcodeRow.hits ⟨0x01, 0xFF, "RD_OLD_COUNT"⟩ 0x01 = true ∧
    OpcodeRow.hits ⟨0x02, 0xFF, "RD_MOTION"⟩ 0x02 = true ∧ OpcodeRow.hits ⟨0x03, 0xFF, "RD_STATUS"⟩ 0x03 = true ∧
    OpcodeRow.hits ⟨0x44, 0xFF, "WR_REVERSE"⟩ 0x44 = true ∧ OpcodeRow.hits ⟨0x45, 0xFF, "WR_INIT"⟩ 0x45 = true ∧
    OpcodeRow.hits ⟨0x81, 0xFF, "EDGE_A"⟩ 0x81 = true ∧ OpcodeRow.hits ⟨0x82, 0xFF, "EDGE_B"⟩ 0x82 = true ∧
    OpcodeRow.hits ⟨0x83, 0xFF, "EDGE_AB"⟩ 0x83 = true := by decide

/-- An instruction without an operand is of another format than HW. -/
theorem operand_none {o : Option Word} {f : Format} (ho : o = none) (hf : f ≠ .hw) : o.isSome = true ↔ f = .hw :=
  ⟨fun h => absurd h (by simp [ho]), fun h => absurd h hf⟩

/-- An instruction with an operand is of format HW. -/
theorem operand_some {o : Option Word} {f : Format} (ho : o.isSome = true) (hf : f = .hw) :
    o.isSome = true ↔ f = .hw := ⟨fun _ => hf, fun _ => ho⟩

theorem rdCount : Statement .rdCount := ⟨⟨_, rfl, hits_fixed.1⟩, operand_none rfl nofun⟩
theorem rdOldCount : Statement .rdOldCount := ⟨⟨_, rfl, hits_fixed.2.1⟩, operand_none rfl nofun⟩
theorem rdMotion : Statement .rdMotion := ⟨⟨_, rfl, hits_fixed.2.2.1⟩, operand_none rfl nofun⟩
theorem rdStatus : Statement .rdStatus := ⟨⟨_, rfl, hits_fixed.2.2.2.1⟩, operand_none rfl nofun⟩

theorem rdRazCommand (off : Offset) : Statement (.rdRazCommand off) :=
  ⟨⟨_, rfl, (hits_rowWord off).1⟩, operand_none rfl nofun⟩

theorem rdRazReservedLow (off : Offset) : Statement (.rdRazReservedLow off) :=
  ⟨⟨_, rfl, (hits_rowWord off).2.1⟩, operand_none rfl nofun⟩

theorem rdRazReservedHigh (off : Offset) : Statement (.rdRazReservedHigh off) :=
  ⟨⟨_, rfl, (hits_rowWord off).2.2.1⟩, operand_none rfl nofun⟩

theorem wrIgnoredReadOnly (off : Offset) (wdata : Word) : Statement (.wrIgnoredReadOnly off wdata) :=
  ⟨⟨_, rfl, (hits_rowWord off).2.2.2.1⟩, operand_some rfl rfl⟩

theorem wrReverse (wdata : Word) : Statement (.wrReverse wdata) :=
  ⟨⟨_, rfl, hits_fixed.2.2.2.2.1⟩, operand_some rfl rfl⟩

theorem wrInit (wdata : Word) : Statement (.wrInit wdata) :=
  ⟨⟨_, rfl, hits_fixed.2.2.2.2.2.1⟩, operand_some rfl rfl⟩

theorem wrIgnoredReservedLow (off : Offset) (wdata : Word) : Statement (.wrIgnoredReservedLow off wdata) :=
  ⟨⟨_, rfl, (hits_rowWord off).2.2.2.2.1⟩, operand_some rfl rfl⟩

theorem wrIgnoredReservedHigh (off : Offset) (wdata : Word) : Statement (.wrIgnoredReservedHigh off wdata) :=
  ⟨⟨_, rfl, (hits_rowWord off).2.2.2.2.2⟩, operand_some rfl rfl⟩

theorem edgeA : Statement .edgeA := ⟨⟨_, rfl, hits_fixed.2.2.2.2.2.2.1⟩, operand_none rfl nofun⟩
theorem edgeB : Statement .edgeB := ⟨⟨_, rfl, hits_fixed.2.2.2.2.2.2.2.1⟩, operand_none rfl nofun⟩
theorem edgeAB : Statement .edgeAB := ⟨⟨_, rfl, hits_fixed.2.2.2.2.2.2.2.2⟩, operand_none rfl nofun⟩

end Sys2Proof.Laws.RowMatch
end

