-- ==== Sys2Proof/Tests/Slice0.lean ====
section
/-! SUPPORT. The model's own tests. Expected values come from 95_test_vectors.md, from the examples in 40_edge.md and
41_host.md, and from the encodings of 30_encoding.md written out bit by bit. The witnesses at the end show that each
statement's hypotheses can be met. -/

namespace Sys2Proof.Tests

open Sys2Proof.Machine

/-! ### Well-formedness: one ill-formed term for each check -/

theorem test_wf_razCommand : (Instr.rdRazCommand 0x6).wf = false := by decide
theorem test_wf_razReservedLow : (Instr.rdRazReservedLow 0x8).wf = false := by decide
theorem test_wf_razReservedHigh : (Instr.rdRazReservedHigh 0x7).wf = false := by decide
theorem test_wf_ignoredReadOnly : (Instr.wrIgnoredReadOnly 0x4 0).wf = false := by decide
theorem test_wf_ignoredReservedLow : (Instr.wrIgnoredReservedLow 0x5 0).wf = false := by decide
theorem test_wf_ignoredReservedHigh : (Instr.wrIgnoredReservedHigh 0x7 0).wf = false := by decide

/-! ### Decoding: KIND, Z, SEL written out from R57 and R61, one word for every constructor -/

theorem test_decode_rdCount : decode 0b00000000 0 = .ok .rdCount := by decide
theorem test_decode_rdOldCount : decode 0b00000001 0 = .ok .rdOldCount := by decide
theorem test_decode_rdMotion : decode 0b00000010 0 = .ok .rdMotion := by decide
theorem test_decode_rdStatus : decode 0b00000011 0 = .ok .rdStatus := by decide
theorem test_decode_rdRazCommand : decode 0b00000101 0 = .ok (.rdRazCommand 0x5) := by decide
theorem test_decode_rdRazReservedLow : decode 0b00000110 0 = .ok (.rdRazReservedLow 0x6) := by decide
theorem test_decode_rdRazReservedHigh : decode 0b00001111 0 = .ok (.rdRazReservedHigh 0xF) := by decide
theorem test_decode_wrIgnoredReadOnly : decode 0b01000000 0x1234 = .ok (.wrIgnoredReadOnly 0x0 0x1234) := by decide
theorem test_decode_wrReverse : decode 0b01000100 0 = .ok (.wrReverse 0) := by decide
theorem test_decode_wrInit : decode 0b01000101 0 = .ok (.wrInit 0) := by decide
theorem test_decode_wrIgnoredReservedLow : decode 0b01000111 5 = .ok (.wrIgnoredReservedLow 0x7 5) := by decide
theorem test_decode_wrIgnoredReservedHigh : decode 0b01001001 5 = .ok (.wrIgnoredReservedHigh 0x9 5) := by decide
theorem test_decode_edgeA : decode 0b10000001 0 = .ok .edgeA := by decide
theorem test_decode_edgeB : decode 0b10000010 0 = .ok .edgeB := by decide
theorem test_decode_edgeAB : decode 0b10000011 0 = .ok .edgeAB := by decide

/-- The refused rows of V-DEC; 0xFF is Z_NONZERO because bits 5:4 are tested before KIND. -/
theorem test_decode_refused :
    decode 0x10 0 = .error .zNonzero ∧ decode 0x80 0 = .error .edgeNone ∧ decode 0x84 0 = .error .edgeSelHigh ∧
    decode 0x90 0 = .error .zNonzero ∧ decode 0xC0 0 = .error .kindReserved ∧ decode 0xFF 0 = .error .zNonzero := by
  decide

/-- WDATA is the second word of the table's numbering, bits 39:8 (log 8). -/
theorem test_decodeTableWord :
    decodeTableWord 8 0x44 = some (.wrReverse 0) ∧ decodeTableWord 40 0x123445 = some (.wrInit 0x1234) ∧
    decodeTableWord 8 0xC0 = none := by decide

/-! ### Small states -/

/-- An armed state with W = 32: levels, orientation, counter and snapshot given. -/
def st (a b rev : Bool) (c snap : Int) : State :=
  { State.reset with lvlA := a, lvlB := b, rev := rev, armed := true, cnt := wrap 32 c, snap := wrap 32 snap }

/-- The same with W = 4. -/
def st4 (a b rev : Bool) (c snap : Int) : State :=
  { cfg := { cntW := 4 }, lvlA := a, lvlB := b, oldRd := 0, newRd := 0, cnt := wrap 4 c, snap := wrap 4 snap, rev := rev,
    armed := true, cfgErr := false, lineA := false, lineB := false, rdata := none, pending := [] }

/-- The unarmed post-RESET state with line B not capable. -/
def stIncapable : State := { State.reset with cfg := { edgeCapB := false }, cnt := 0, snap := 0 }

/-- The next state, where there is one. -/
def after : Host.Outcome State Fault Refusal → Option State
  | .next t => some t
  | .fault _ => none
  | .refused _ => none

/-- What V-EDGE-T tabulates of an edge, as integers: the counter's change from 0, the levels and both Readings after. -/
def row (i : Instr) (rev a b : Bool) : List Int :=
  match after (exec i (st a b rev 0 0)) with
  | some t => [t.cntVal, t.lvlA.toNat, t.lvlB.toNat, t.oldRd.toNat, t.newRd.toNat]
  | none => []

/-- The eight rows of one edge transaction: REV 0 then 1, the levels before (0,0), (0,1), (1,0), (1,1). -/
def table (i : Instr) : List (List Int) :=
  [false, true].flatMap fun rev => [row i rev false false, row i rev false true, row i rev true false, row i rev true true]

/-! ### Edges: V-EDGE-T, all 24 rows, and the wraps V-EDGE-5 and V-EDGE-6 -/

theorem test_edgeA_table :
    table .edgeA =
      [[1, 1, 0, 0, 2], [-1, 1, 1, 1, 3], [-1, 0, 0, 2, 0], [1, 0, 1, 3, 1],
       [-1, 1, 0, 0, 1], [1, 1, 1, 2, 3], [1, 0, 0, 1, 0], [-1, 0, 1, 3, 2]] := by decide

theorem test_edgeB_table :
    table .edgeB =
      [[-1, 0, 1, 0, 1], [1, 0, 0, 1, 0], [1, 1, 1, 2, 3], [-1, 1, 0, 3, 2],
       [1, 0, 1, 0, 2], [-1, 0, 0, 2, 0], [-1, 1, 1, 1, 3], [1, 1, 0, 3, 1]] := by decide

theorem test_edgeAB_table :
    table .edgeAB =
      [[0, 1, 1, 0, 3], [0, 1, 0, 1, 2], [0, 0, 1, 2, 1], [0, 0, 0, 3, 0],
       [0, 1, 1, 0, 3], [0, 1, 0, 2, 1], [0, 0, 1, 1, 2], [0, 0, 0, 3, 0]] := by decide

theorem test_edgeA_wraps_up : (after (exec .edgeA (st4 false false false 7 0))).map State.cntVal = some (-8) := by decide
theorem test_edgeB_wraps_down : (after (exec .edgeB (st4 false false false (-8) 0))).map State.cntVal = some 7 := by decide

/-- V-EDGE-8. -/
theorem test_edgeAB_unarmed : after (exec .edgeAB State.reset) = some State.reset := by decide

/-! ### Host reads: V-HOST-1, V-HOST-2, V-MOT, V-HOST-3, V-HOST-8 -/

theorem test_rdCount :
    (after (exec .rdCount (st false false false (-4) 0))).map State.rdata = some (some 0xFFFFFFFC) ∧
    (after (exec .rdCount (st4 false false false (-8) 0))).map State.rdata = some (some 0xFFFFFFF8) := by decide

theorem test_rdOldCount :
    (after (exec .rdOldCount (st false false false 9 4))).map State.rdata = some (some 0x00000004) := by decide

/-- V-MOT-2, 3, 4, 9, 10, 11 (W = 32): rdata and SNAP after. -/
theorem test_rdMotion_32 :
    ([(4, 0), (0, 4), (5, -3), (-2147483648, 2147483647), (2147483647, -2147483648), (-2147483648, 0)].map fun p =>
      (after (exec .rdMotion (st false false false p.1 p.2))).map fun t => (t.rdata, t.snapVal)) =
    [some (some 1, 4), some (some 3, 0), some (some 1, 5), some (some 1, -2147483648), some (some 3, 2147483647),
     some (some 3, -2147483648)] := by decide

/-- V-MOT-5 to V-MOT-8 and V-MOT-12 (W = 4). -/
theorem test_rdMotion_4 :
    ([(7, 0), (-7, 7), (-8, 0), (7, -8), (3, 3)].map fun p =>
      (after (exec .rdMotion (st4 false false false p.1 p.2))).map fun t => (t.rdata, t.snapVal)) =
    [some (some 1, 7), some (some 1, -7), some (some 3, -8), some (some 3, 7), some (some 0, 3)] := by decide

/-- V-HOST-3: armed is bit 1, REV bit 0, CFG_ERR bit 2. -/
theorem test_rdStatus :
    (after (exec .rdStatus (st false false true 0 0))).map State.rdata = some (some 0x00000003) ∧
    (after (exec .rdStatus { stIncapable with cfgErr := true })).map State.rdata = some (some 0x00000004) := by decide

theorem test_rdRazCommand :
    after (exec (.rdRazCommand 0x4) State.reset) = some { State.reset with rdata := some 0 } := by decide
theorem test_rdRazReservedLow :
    after (exec (.rdRazReservedLow 0x6) State.reset) = some { State.reset with rdata := some 0 } := by decide
theorem test_rdRazReservedHigh :
    after (exec (.rdRazReservedHigh 0xF) State.reset) = some { State.reset with rdata := some 0 } := by decide

/-! ### Host writes: V-HOST-4, V-HOST-5, V-HOST-6, V-HOST-7, V-HOST-9 -/

theorem test_wrReverse : after (exec (.wrReverse 0) State.reset) = some { State.reset with rev := true } := by decide

/-- V-HOST-4: under REV = 1 with lines (1, 0) both Readings are 0b01. -/
theorem test_wrInit_seeds :
    after (exec (.wrInit 0) { State.reset with rev := true, lineA := true }) =
      some { State.reset with rev := true, lineA := true, lvlA := true, oldRd := 0b01, newRd := 0b01, armed := true } := by
  decide

/-- V-HOST-6 and V-HOST-5: a line that is not capable sets only CFG_ERR; while armed nothing changes. -/
theorem test_wrInit_otherwise :
    after (exec (.wrInit 0) stIncapable) = some { stIncapable with cfgErr := true } ∧
    after (exec (.wrInit 0) { st true false false 1 0 with lineB := true }) =
      some { st true false false 1 0 with lineB := true } := by decide

theorem test_wrIgnoredReadOnly :
    after (exec (.wrIgnoredReadOnly 0x0 0x1234) (st false false false 1 0)) = some (st false false false 1 0) := by decide
theorem test_wrIgnoredReservedLow :
    after (exec (.wrIgnoredReservedLow 0x7 5) (st false false true 1 0)) = some (st false false true 1 0) := by decide
theorem test_wrIgnoredReservedHigh :
    after (exec (.wrIgnoredReservedHigh 0x9 5) (st false false true 1 0)) = some (st false false true 1 0) := by decide

/-! ### The step -/

theorem test_reset_idle : after (step State.reset) = some State.reset := by decide

/-- A placed word is run by the very next step. -/
theorem test_withFetchWord :
    after (step (State.reset.withFetchWord 8 0x44)) = some { State.reset with rev := true } := by decide

/-- V-HOST-10: RESET from CNT = SNAP = 4, REV = ARMED = 1. -/
theorem test_reset_strobe :
    after (step { st true true true 4 4 with pending := [⟨false, false, .rst⟩] }) = some State.reset := by decide

/-- 20_memory.md R50: offset 5 is at QDEC_BASE + 20. -/
theorem test_bus :
    (after (step { State.reset with pending := [⟨true, false, .bus true 20 4 0⟩] })).map State.armed = some true ∧
    after (step { State.reset with pending := [⟨true, false, .bus true 20 2 0⟩] }) = none := by decide

/-- 30_encoding.md R68: a listing number below 6 is no register operand. -/
theorem test_listing :
    assemble (.rd (.reservedOffset 0x5)) = none ∧ assemble (.wr .init 0) = some (.host true 0x5 0) ∧
    assemble (.edge .ab) = some (.edges true true) ∧ assemble .reset = some .rst := by decide

/-- 60_exceptions.md R111: who issues what. -/
theorem test_agents :
    Request.rst.agents = [.resetSource] ∧ (Request.host false 0 0).agents = [.host] ∧
    (Request.edges true false).agents = [.edgeSourceA] ∧ (Request.edges true true).agents = [.edgeSourceA, .edgeSourceB] := by
  decide

/-! ### Witnesses: the hypotheses of each statement can be met, at the boundaries of its clauses -/

/-- One delivery of a request, lines low. -/
def one (r : Request) : List Delivery := [⟨false, false, r⟩]

theorem witness_DecodeOfEncodeReturnsTheInstruction :
    (Instr.rdRazCommand 0x4).wf = true ∧ (Instr.rdRazCommand 0x5).wf = true ∧ (Instr.wrIgnoredReadOnly 0x3 7).wf = true ∧
    (Instr.rdRazReservedHigh 0xF).wf = true := by decide
theorem witness_DecodedWordsEncodeBack : decode 0x43 7 = .ok (.wrIgnoredReadOnly 0x3 7) := by decide
theorem witness_OpcodeTableRowsDecideDecoding :
    opcodeRows[6]? = some ⟨0x08, 0xF8, "RD_RAZ"⟩ ∧ OpcodeRow.hits ⟨0x08, 0xF8, "RD_RAZ"⟩ 0x0F = true := by decide
theorem witness_IllFormedWordsAreRefused :
    decode 0xC0 0 = .error .kindReserved ∧ decode 0x8F 0 = .error .edgeSelHigh ∧ decode 0x80 0 = .error .edgeNone ∧
    decode 0x10 0 = .error .zNonzero ∧
    ({ State.reset with pending := one (.word 0x80 0) } : State).pending = ⟨false, false, .word 0x80 0⟩ :: [] := by decide
theorem witness_KindTellsFormatOperandAndResponse :
    decode 0x0F 0 = .ok (.rdRazReservedHigh 0xF) ∧ decode 0x4F 0 = .ok (.wrIgnoredReservedHigh 0xF 0) ∧
    decode 0x83 0 = .ok .edgeAB := by decide
theorem witness_OnlyLegalWidthsConfigureAMachine :
    (Config.ofParams 2 true false 0).isSome = true ∧ (Config.ofParams 32 true false 0).isSome = true ∧
    Config.ofParams 1 true true 0 = none ∧ Config.ofParams 33 true true 0 = none := by decide
theorem witness_StepRunsTheDecodedTransaction :
    ({ State.reset with pending := one (.word 0x81 0) } : State).pending = ⟨false, false, .word 0x81 0⟩ :: [] ∧
    decode 0x81 0 = .ok .edgeA := by decide
theorem witness_StrobesFormTheirTransactions :
    ({ State.reset with pending := one (.host true 0xF 0) } : State).pending = ⟨false, false, .host true 0xF 0⟩ :: [] ∧
    ({ State.reset with pending := one (.edges true true) } : State).pending = ⟨false, false, .edges true true⟩ :: [] ∧
    (true || true) = true ∧
    ({ State.reset with pending := one (.edges true (!true)) ++ one (.edges (!true) true) } : State).pending =
      ⟨false, false, .edges true (!true)⟩ :: ⟨false, false, .edges (!true) true⟩ :: [] := by decide
/-- Offset 15 is the last in the window, byte 64 the first after it, byte 62 misaligned. -/
theorem witness_BusAccessesReachWholeRegistersOnly :
    ({ State.reset with pending := one (.bus false 60 4 0) } : State).pending = ⟨false, false, .bus false 60 4 0⟩ :: [] ∧
    60 = State.reset.cfg.qdecBase + 4 * 15 ∧ 62 % 4 ≠ State.reset.cfg.qdecBase % 4 ∧
    64 % 4 = State.reset.cfg.qdecBase % 4 ∧ State.reset.cfg.qdecBase + 64 ≤ 64 := by decide
theorem witness_StepCompletesExactlyOnTransactions :
    (Request.word 0x4F 0).admissible State.reset.cfg = true ∧ (Request.word 0x50 0).admissible State.reset.cfg = false ∧
    ({ State.reset with pending := one (.word 0x50 0) } : State).pending = ⟨false, false, .word 0x50 0⟩ :: [] := by decide
theorem witness_NothingDeliveredChangesNothing : State.reset.pending = [] := by decide
theorem witness_DeliveredTransactionsCompleteInOrder :
    (∀ d ∈ one .rst ++ one (.edges true false) ++ one (.host false 0 0), d.req.admissible State.reset.cfg = true) ∧
    2 ≤ ({ State.reset with pending := one .rst ++ one (.edges true false) ++ one (.host false 0 0) } : State).pending.length := by
  decide
theorem witness_ParametersNeverChange : ∃ t, step { State.reset with pending := one .rst } = .next t := ⟨_, rfl⟩
theorem witness_ResetGivesEveryElementItsResetValue :
    ({ st true true true 4 4 with pending := one .rst } : State).pending = ⟨false, false, .rst⟩ :: [] ∧
    (∃ t u, step { st true true true 4 4 with pending := one .rst } = .next t ∧
      execAll [.wrInit 0, .edgeA, .edgeB, .edgeB, .edgeA] t = .next u ∧ u.cntVal = 0) ∧
    (∀ i ∈ [Instr.edgeA, .rdStatus], ∀ w, i ≠ .wrInit w) ∧ (∀ i ∈ [Instr.wrInit 0, .edgeA], i ≠ .rdMotion) :=
  ⟨rfl, ⟨_, _, rfl, rfl, by decide⟩, by simp, by decide⟩
/-- Both clauses: RESET clears ARMED, WR_INIT sets it. -/
theorem witness_ArmedIsClearedOnlyByResetAndSetOnlyByInit :
    (∃ t, step { st true true true 4 4 with pending := one .rst } = .next t ∧ t.armed = false) ∧
    (st true true true 4 4).armed = true ∧
    (∃ t, step { State.reset with pending := one (.host true 0x5 0) } = .next t ∧ t.armed = true) ∧
    State.reset.armed = false := ⟨⟨_, rfl, rfl⟩, rfl, ⟨_, rfl, rfl⟩, rfl⟩
/-- Armed and unarmed: the hypotheses of the three edge statements and of UnarmedEdgesChangeNothing. -/
theorem witness_EdgeStatements :
    (st false false false 0 0).armed = true ∧ State.reset.armed = false ∧
    (∀ j ∈ [Instr.edgeA, .edgeB, .edgeAB], j = .edgeA ∨ j = .edgeB ∨ j = .edgeAB) := by decide
theorem witness_ArmedEdgeRunsTheFiveSteps :
    (st false false false 0 0).armed = true ∧
    (Instr.edgeAB, true, true) ∈ [(Instr.edgeA, true, false), (.edgeB, false, true), (.edgeAB, true, true)] := by decide
theorem witness_EverySingleEdgeChangesTheCountByOne :
    (st true false true 0 0).armed = true ∧ (∃ t, exec .edgeA (st true false true 0 0) = .next t) ∧
    ∃ t, exec .edgeAB (st true false true 0 0) = .next t := ⟨rfl, ⟨_, rfl⟩, _, rfl⟩
/-- Both ends of the range, W = 4, each with a step that wraps there. -/
theorem witness_CounterWrapsAndHasNoOtherWriter :
    (st4 false false false 7 0).cntVal = (st4 false false false 7 0).halfRange - 1 ∧
    ((after (exec .edgeA (st4 false false false 7 0))).map fun t => rom (romIndex t.oldRd t.newRd)) = some 1 ∧
    (st4 false false false (-8) 0).cntVal = -(st4 false false false (-8) 0).halfRange ∧
    ((after (exec .edgeB (st4 false false false (-8) 0))).map fun t => rom (romIndex t.oldRd t.newRd)) = some (-1) ∧
    ((after (step { st4 false false false 7 0 with pending := one .rst })).map State.cntVal) = some 0 := by decide
/-- QuadratureOrderGivesTheDirection and SimultaneousChangeCountsByDeliveryForm. -/
theorem witness_FromBothLinesLow :
    (st false false false 5 0).armed = true ∧ (st false false false 5 0).rev = false ∧
    (st false false false 5 0).lvlA = false ∧ (st false false false 5 0).lvlB = false := by decide
/-- P6: the levels differ at the time of the WR_REVERSE. -/
theorem witness_ReplayAfterReverseNegatesTheCount :
    (∀ e ∈ [Instr.edgeB, .edgeA], e = .edgeA ∨ e = .edgeB ∨ e = .edgeAB) ∧
    (∃ t, execAll [.edgeB, .edgeA] (st true false false 0 0) = .next t) ∧
    ∃ u, execAll [.wrReverse 0, .edgeB, .edgeA] (st true false false 0 0) = .next u := ⟨by decide, ⟨_, rfl⟩, _, rfl⟩
theorem witness_ClosedPathsCountMultiplesOfFour :
    ∃ t, execAll [.edgeA, .edgeB, .edgeA, .edgeB] (st false false false 0 0) = .next t ∧
      t.lvlA = (st false false false 0 0).lvlA ∧ t.lvlB = (st false false false 0 0).lvlB := ⟨_, rfl, rfl, rfl⟩
/-- Wrong in one line, and wrong in both. -/
theorem witness_MissedEdgeInvertsLaterCounts :
    (st false false false 0 0).armed = true ∧ (∀ e ∈ [Instr.edgeB, .edgeA], e = .edgeA ∨ e = .edgeB) ∧
    (∃ t, execAll [.edgeB, .edgeA] (st false false false 0 0) = .next t) ∧
    (∃ u, execAll [.edgeB, .edgeA] { st false false false 0 0 with lvlA := false ^^ true, lvlB := false ^^ false } = .next u) ∧
    (true != false) = true ∧ (true != true) = false := ⟨rfl, by decide, ⟨_, rfl⟩, ⟨_, rfl⟩, rfl, rfl⟩
theorem witness_LevelsAreOwnedByTheirChannel :
    (∃ t, exec .edgeA (st false false false 0 0) = .next t ∧ t.lvlA ≠ (st false false false 0 0).lvlA) ∧
    ∃ t, exec (.wrInit 0) { State.reset with lineB := true } = .next t ∧ t.lvlB ≠ State.reset.lvlB :=
  ⟨⟨_, rfl, by decide⟩, _, rfl, by decide⟩
/-- An edge, the classifier, a reversal and an initialization each change what they own. -/
theorem witness_EachElementHasOnlyItsWriters :
    (∃ t, exec .edgeA (st false false false 0 0) = .next t ∧ t.newRd ≠ (0 : Reading) ∧ t.cntVal ≠ 0 ∧ t.lvlA ≠ false) ∧
    (∃ t, exec .edgeB (st false false false 0 0) = .next t ∧ t.lvlB ≠ false) ∧
    (∃ t, exec .rdMotion (st false false false 4 0) = .next t ∧ t.snapVal ≠ 0) ∧
    (∃ t, exec (.wrReverse 0) State.reset = .next t ∧ t.rev ≠ State.reset.rev) ∧
    ∃ t, exec (.wrInit 0) State.reset = .next t ∧ t.armed ≠ State.reset.armed :=
  ⟨⟨_, rfl, by decide, by decide, by decide⟩, ⟨_, rfl, by decide⟩, ⟨_, rfl, by decide⟩, ⟨_, rfl, by decide⟩, _, rfl, by decide⟩
theorem witness_ReadingsRecordTheLastEdge :
    (st false false false 0 0).armed = true ∧
    (st false false false 0 0).newRd = compose (st false false false 0 0).lvlA (st false false false 0 0).lvlB false ∧
    (∀ i ∈ [Instr.edgeA, .rdMotion], ∀ w, i ≠ .wrReverse w) ∧
    ∃ t, execAll [.edgeA, .rdMotion] (st false false false 0 0) = .next t :=
  ⟨rfl, by decide, by simp, _, rfl⟩
/-- Bits 31:W of a narrow counter, first and last. -/
theorem witness_ReadOfCountAnswersTheCounter :
    (st4 false false false 0 0).cfg.cntW ≤ 4 ∧ 4 < 32 ∧ 31 < 32 ∧
    (∀ i ∈ [Instr.rdMotion, .wrReverse 0], i.format ≠ .ev) ∧
    ∃ t, execAll [.rdCount, .rdMotion, .wrReverse 0] (st4 false false false 5 0) = .next t :=
  ⟨by decide, by decide, by decide, by decide, _, rfl⟩
theorem witness_ReadOfOldCountAnswersTheSnapshot :
    (∀ i ∈ [Instr.wrInit 0, .edgeA], i ≠ .rdMotion) ∧
    ∃ t, execAll [.wrInit 0, .edgeA] (resetTransaction (st false false false 4 4)) = .next t :=
  ⟨by decide, _, rfl⟩
theorem witness_ReverseTogglesOnlyTheOrientation :
    (st true false false 0 0).armed = true ∧ Instr.edgeB ∈ [Instr.edgeA, .edgeB] := by decide
/-- The three classes, the greatest and the least delta among them. -/
theorem witness_ReadOfMotionClassifiesAndMovesTheSnapshot :
    0 < ((st4 false false false 7 0).cntVal - (st4 false false false 7 0).snapVal).bmod (2 ^ 4) ∧
    ((st4 false false false (-8) 0).cntVal - (st4 false false false (-8) 0).snapVal).bmod (2 ^ 4) < 0 ∧
    ((st4 false false false 3 3).cntVal - (st4 false false false 3 3).snapVal).bmod (2 ^ 4) = 0 := by decide
/-- Both extreme true movements, W = 4, the first across the wrap. -/
theorem witness_MotionDeltaIsTheTrueMovementWithinRange :
    (st4 false false false (-2) 7).cnt =
      wrap (st4 false false false (-2) 7).cfg.cntW ((st4 false false false (-2) 7).snapVal + 7) ∧
    (7 : Int) < (st4 false false false (-2) 7).halfRange ∧
    (st4 false false false (-7) 0).cnt =
      wrap (st4 false false false (-7) 0).cfg.cntW ((st4 false false false (-7) 0).snapVal + -7) ∧
    -(st4 false false false (-7) 0).halfRange < (-7 : Int) := by decide
theorem witness_ReadOfStatusAnswersTheFlags :
    State.reset.Consistent ∧ ({ stIncapable with cfgErr := true } : State).Consistent := by decide
theorem witness_InitSeedsAndArmsOrReportsTheConfigurationError :
    (st false false false 0 0).armed = true ∧ State.reset.armed = false ∧ State.reset.cfg.edgeCapA = true ∧
    State.reset.cfg.edgeCapB = true ∧ stIncapable.armed = false ∧ stIncapable.cfg.edgeCapB = false := by decide
theorem witness_ReadsOfCommandAndReservedOffsetsAnswerZero :
    0x04 ≤ (0x04 : TW).toNat ∧ (0x04 : TW).toNat ≤ 0x0F ∧ 0x04 ≤ (0x0F : TW).toNat ∧ (0x0F : TW).toNat ≤ 0x0F := by decide
theorem witness_WritesOfReadOnlyAndReservedOffsetsAreIgnored :
    (0x40 ≤ (0x43 : TW).toNat ∧ (0x43 : TW).toNat ≤ 0x43) ∧ (0x46 ≤ (0x46 : TW).toNat ∧ (0x46 : TW).toNat ≤ 0x4F) ∧
    (0x46 ≤ (0x4F : TW).toNat ∧ (0x4F : TW).toNat ≤ 0x4F) := by decide
/-- Every clause of the register map: the four registers and both ends of the RAZ range. -/
theorem witness_RegisterMapAnswersByOffset :
    ([0x0, 0x1, 0x2, 0x3, 0x4, 0xF].map fun off : Offset => decode (hostWord false off) 7) =
      [.ok .rdCount, .ok .rdOldCount, .ok .rdMotion, .ok .rdStatus, .ok (.rdRazCommand 0x4), .ok (.rdRazReservedHigh 0xF)] ∧
    0x4 ≤ (0x4 : Offset).toNat ∧ 0x4 ≤ (0xF : Offset).toNat := by decide
theorem witness_RepeatedAccessesBehaveAsTheRegisterSays :
    Instr.rdCount.format = .hr ∧ Instr.rdCount ≠ .rdMotion ∧
    (∃ t, exec .rdCount State.reset = .next t ∧ ∃ u, exec .rdCount t = .next u) ∧
    (∀ i ∈ [Instr.rdCount, .wrReverse 0], i.format ≠ .ev) ∧
    (∃ t, execAll [.rdMotion, .rdCount, .wrReverse 0] (st false false false 4 0) = .next t) ∧
    (st false false false 0 0).armed = true ∧ (∃ t, execAll [.edgeA, .rdMotion] (st false false false 0 0) = .next t) ∧
    (Instr.wrIgnoredReadOnly 0 0).format = .hw ∧
    (∀ w, Instr.wrIgnoredReadOnly 0 0 ≠ .wrReverse w) ∧ (∀ w, Instr.wrIgnoredReadOnly 0 0 ≠ .wrInit w) :=
  ⟨rfl, by decide, ⟨_, rfl, _, rfl⟩, by decide, ⟨_, rfl⟩, rfl, ⟨_, rfl⟩, rfl, by simp, by simp⟩
theorem witness_MotionDeltasTelescope :
    ∃ t, execAll [.rdMotion, .edgeA, .rdMotion] (st false false false 4 0) = .next t := ⟨_, rfl⟩
theorem witness_HostCannotReachTheDecoder :
    decode (hostWord true 0xF) 0 = .ok (.wrIgnoredReservedHigh 0xF 0) ∧ decode (edgeWord true true) 0 = .ok .edgeAB ∧
    Instr.rdMotion.format ≠ .ev ∧ (after (exec .rdMotion (st false false false 4 0))).isSome = true ∧
    (st false false false 4 0).armed = true := by decide
theorem witness_HiddenStateIsInvisibleToTheHost :
    (∀ i ∈ [Instr.rdStatus, .wrReverse 0], i.format ≠ .ev ∧ ∀ w, i ≠ .wrInit w) ∧
    (∃ t, execAll [.rdStatus, .wrReverse 0] State.reset = .next t) ∧
    ∃ u, execAll [.rdStatus, .wrReverse 0] { State.reset with lvlA := true, lvlB := true, oldRd := 3, newRd := 2, lineA := true, lineB := false } = .next u :=
  ⟨by simp [Instr.format], ⟨_, rfl⟩, _, rfl⟩
theorem witness_WriteDataIsIgnored : decode 0x44 1 = .ok (.wrReverse 1) ∧ decode 0x44 2 = .ok (.wrReverse 2) := by decide
theorem witness_ReverseMayComeBeforeOrAfterInit :
    State.reset.armed = false ∧ State.reset.cfg.edgeCapA = true ∧ State.reset.cfg.edgeCapB = true := by decide
theorem witness_EveryStepKeepsConsistency :
    (st false false false 0 0).Consistent ∧
    ({ st false false false 0 0 with pending := one (.edges true false) } : State).Consistent ∧
    (after (step { st false false false 0 0 with pending := one (.edges true false) })).isSome = true := by decide
theorem witness_CountParityFollowsTheLevels :
    (st false false false 0 0).armed = true ∧
    ((after (step { st false false false 0 0 with pending := one (.edges true false) })).map State.armed) = some true := by
  decide

end Sys2Proof.Tests
end

section
/-! The scope statements (00_scope.md): which widths configure a machine, what a step runs, and what no step changes. -/

namespace Sys2Proof.Machine

/-! ## What the shared operations and the transactions leave alone -/

@[simp] theorem edge_cfg (eA eB : Bool) (s : State) : (edge eA eB s).cfg = s.cfg := by
  rcases Bool.eq_false_or_eq_true s.armed with h | h
  · rw [edge_armed h, recordEdge_cfg]
  · rw [edge_unarmed h]

@[simp] theorem initOperation_cfg (s : State) : (initOperation s).cfg = s.cfg := by
  rcases Bool.eq_false_or_eq_true s.armed with h | h
  · rw [initOperation_armed h]
  · rcases Bool.eq_false_or_eq_true (linesCapable s.cfg) with hc | hc
    · rw [initOperation_capable h hc, seed_cfg]
    · rw [initOperation_incapable h hc, markCfgErr_cfg]

/-- No transaction writes a parameter (00_scope.md R8). -/
@[simp] theorem effect_cfg (i : Instr) (s : State) : (effect i s).cfg = s.cfg := by
  cases i <;> simp [effect]

/-- No transaction takes or adds a delivery: `effect_setPending`, read where the deliveries put in are those of `s`
itself. -/
@[simp] theorem effect_pending (i : Instr) (s : State) : (effect i s).pending = s.pending := by
  have h := congrArg State.pending (effect_setPending i s s.pending)
  exact h

@[simp] theorem resetTransaction_cfg (s : State) : (resetTransaction s).cfg = s.cfg := rfl

@[simp] theorem resetTransaction_pending (s : State) : (resetTransaction s).pending = s.pending := rfl

/-! ## What a step does, by what is fetched -/

theorem step_of_fetch_idle {s : State} (h : fetch s = .idle) : step s = .next s := by
  simp [step, h]

theorem step_of_fetch_run {s t : State} {i : Instr} (h : fetch s = .run i t) : step s = exec i t := by
  simp [step, h]

/-! ## Which parameters configure a machine -/

theorem ofParams_of_legal {w : Nat} (h : 2 ≤ w ∧ w ≤ 32) (capA capB : Bool) (base : Nat) :
    Config.ofParams w capA capB base =
      some { cntW := w, cntW_ge := h.1, cntW_le := h.2, edgeCapA := capA, edgeCapB := capB, qdecBase := base } :=
  dif_pos h

theorem ofParams_of_illegal {w : Nat} (h : ¬ (2 ≤ w ∧ w ≤ 32)) (capA capB : Bool) (base : Nat) :
    Config.ofParams w capA capB base = none :=
  dif_neg h

/-! ## The statements -/

/-- Settles O16: RESET and every transaction keep the parameters and the deliveries of the state that accepted the
front one, by the inversion of `step`. -/
theorem parametersNeverChange : Obligations.ParametersNeverChange := by
  intro s t h
  obtain ⟨hp, rfl⟩ | ⟨d, rest, hp, -, rfl⟩ | ⟨d, rest, tw, wdata, i, hp, -, -, rfl⟩ := step_next_cases h
  · exact ⟨rfl, by simp [hp]⟩
  · exact ⟨by simp, by simp [hp]⟩
  · exact ⟨by simp, by simp [hp]⟩

/-- Settles O9, on both sides of the test in `Config.ofParams`. -/
theorem onlyLegalWidthsConfigureAMachine : Obligations.OnlyLegalWidthsConfigureAMachine := by
  intro w base capA capB
  constructor
  · intro h
    exact ⟨_, ofParams_of_legal h capA capB base, rfl, rfl, rfl, rfl⟩
  · intro h
    exact ofParams_of_illegal (by omega) capA capB base

/-- Settles O10: the delivered word is formed as it stands, so what is fetched is its decoded transaction. -/
theorem stepRunsTheDecodedTransaction : Obligations.StepRunsTheDecodedTransaction := by
  intro s la lb tw wdata rest i hp hd
  exact step_of_fetch_run (fetch_run hp rfl hd)

/-- Settles O14: with no delivery nothing is fetched. -/
theorem nothingDeliveredChangesNothing : Obligations.NothingDeliveredChangesNothing := by
  intro s hp
  exact step_of_fetch_idle (fetch_nil hp)

end Sys2Proof.Machine
end

section
/-! The state statements (10_state.md): who writes each element, what the host cannot see, the counter's range, the
Readings, the transition ROM, and the consistency invariant. -/

namespace Sys2Proof.Machine

/-! ## What an edge and an initialization do, case by case -/

/-- Inversion of `edge`: nothing while unarmed (40_edge.md R79), the writes of R71 while armed. -/
theorem edge_cases (eA eB : Bool) (s : State) :
    (s.armed = false ∧ edge eA eB s = s) ∨
    (s.armed = true ∧ ∃ k, edge eA eB s =
      recordEdge (s.lvlA ^^ eA) (s.lvlB ^^ eB) (compose s.lvlA s.lvlB s.rev)
        (compose (s.lvlA ^^ eA) (s.lvlB ^^ eB) s.rev) k s) := by
  rcases Bool.eq_false_or_eq_true s.armed with h | h
  · exact .inr ⟨h, _, edge_armed h eA eB⟩
  · exact .inl ⟨h, edge_unarmed h eA eB⟩

/-- Inversion of `initOperation`: the three cases of 41_host.md R93. -/
theorem initOperation_cases (s : State) :
    (s.armed = true ∧ initOperation s = s) ∨
    (s.armed = false ∧ linesCapable s.cfg = true ∧ initOperation s = seed s) ∨
    (s.armed = false ∧ linesCapable s.cfg = false ∧ initOperation s = markCfgErr s) := by
  rcases Bool.eq_false_or_eq_true s.armed with h | h
  · exact .inl ⟨h, initOperation_armed h⟩
  · rcases Bool.eq_false_or_eq_true (linesCapable s.cfg) with hc | hc
    · exact .inr (.inl ⟨h, hc, initOperation_capable h hc⟩)
    · exact .inr (.inr ⟨h, hc, initOperation_incapable h hc⟩)

theorem linesCapable_eq_true_iff {cfg : Config} :
    linesCapable cfg = true ↔ cfg.edgeCapA = true ∧ cfg.edgeCapB = true :=
  Bool.and_eq_true_iff

theorem linesCapable_eq_false_iff {cfg : Config} :
    linesCapable cfg = false ↔ cfg.edgeCapA = false ∨ cfg.edgeCapB = false :=
  Bool.and_eq_false_iff

/-! ## Field by field: an edge and an initialization -/

@[simp] theorem edge_lvlA (eA eB : Bool) (s : State) : (edge eA eB s).lvlA = (s.lvlA ^^ (s.armed && eA)) := by
  obtain ⟨ha, he⟩ | ⟨ha, k, he⟩ := edge_cases eA eB s <;> simp [he, ha]

@[simp] theorem edge_lvlB (eA eB : Bool) (s : State) : (edge eA eB s).lvlB = (s.lvlB ^^ (s.armed && eB)) := by
  obtain ⟨ha, he⟩ | ⟨ha, k, he⟩ := edge_cases eA eB s <;> simp [he, ha]

@[simp] theorem edge_rev (eA eB : Bool) (s : State) : (edge eA eB s).rev = s.rev := by
  obtain ⟨-, he⟩ | ⟨-, k, he⟩ := edge_cases eA eB s <;> simp [he]

@[simp] theorem armed_edge (eA eB : Bool) (s : State) : (edge eA eB s).armed = s.armed := by
  obtain ⟨-, he⟩ | ⟨-, k, he⟩ := edge_cases eA eB s <;> simp [he]

@[simp] theorem edge_cfgErr (eA eB : Bool) (s : State) : (edge eA eB s).cfgErr = s.cfgErr := by
  obtain ⟨-, he⟩ | ⟨-, k, he⟩ := edge_cases eA eB s <;> simp [he]

@[simp] theorem edge_lineA (eA eB : Bool) (s : State) : (edge eA eB s).lineA = s.lineA := by
  obtain ⟨-, he⟩ | ⟨-, k, he⟩ := edge_cases eA eB s <;> simp [he]

@[simp] theorem edge_lineB (eA eB : Bool) (s : State) : (edge eA eB s).lineB = s.lineB := by
  obtain ⟨-, he⟩ | ⟨-, k, he⟩ := edge_cases eA eB s <;> simp [he]

@[simp] theorem initOperation_rev (s : State) : (initOperation s).rev = s.rev := by
  obtain ⟨-, h⟩ | ⟨-, -, h⟩ | ⟨-, -, h⟩ := initOperation_cases s <;> simp [h]

@[simp] theorem initOperation_lineA (s : State) : (initOperation s).lineA = s.lineA := by
  obtain ⟨-, h⟩ | ⟨-, -, h⟩ | ⟨-, -, h⟩ := initOperation_cases s <;> simp [h]

@[simp] theorem initOperation_lineB (s : State) : (initOperation s).lineB = s.lineB := by
  obtain ⟨-, h⟩ | ⟨-, -, h⟩ | ⟨-, -, h⟩ := initOperation_cases s <;> simp [h]

/-- An armed edge records the Readings before and after it, under the current REV (40_edge.md R74). -/
theorem edge_readings {s : State} (h : s.armed = true) (eA eB : Bool) :
    (edge eA eB s).oldRd = compose s.lvlA s.lvlB s.rev ∧
    (edge eA eB s).newRd = compose (s.lvlA ^^ eA) (s.lvlB ^^ eB) s.rev := by
  rw [edge_armed h]
  exact ⟨rfl, rfl⟩

/-- An armed edge moves the counter by the step looked up at the Readings it records (40_edge.md R75). -/
theorem edge_cntVal {s : State} (h : s.armed = true) (eA eB : Bool) :
    (edge eA eB s).cntVal =
      sval (countStep (rom (romIndex (edge eA eB s).oldRd (edge eA eB s).newRd)) s.cnt) := by
  rw [edge_armed h]
  rfl

/-- A coalesced edge never counts (40_edge.md R78). -/
theorem edge_both_cntVal (s : State) : (edge true true s).cntVal = s.cntVal := by
  rcases Bool.eq_false_or_eq_true s.armed with h | h
  · obtain ⟨hold, hnew⟩ := edge_readings h true true
    rw [edge_cntVal h, hold, hnew, Bool.xor_true, Bool.xor_true, rom_edgeAB, countStep_two]
    rfl
  · rw [edge_unarmed h]

/-! ## What the host cannot see -/

/-- `s` with other values of the hidden elements, the levels and the Readings, and of the inputs. -/
def withHidden (a b la lb : Bool) (o n : Reading) (s : State) : State :=
  { s with lvlA := a, lvlB := b, oldRd := o, newRd := n, lineA := la, lineB := lb }

/-- No host transaction but INIT looks at a hidden element, and none writes one (10_state.md R19, R33). -/
theorem effect_withHidden {i : Instr} (hev : i.format ≠ .ev) (hinit : ∀ w, i ≠ .wrInit w)
    (a b la lb : Bool) (o n : Reading) (s : State) :
    effect i (withHidden a b la lb o n s) = withHidden a b la lb o n (effect i s) := by
  cases i with
  | edgeA | edgeB | edgeAB => exact absurd rfl hev
  | wrInit w => exact absurd rfl (hinit w)
  | _ => rfl

/-- A sequence of host transactions other than INIT runs alike over any two values of the hidden elements. -/
theorem execAll_withHidden (a b la lb : Bool) (o n : Reading) {is : List Instr} {s t : State}
    (hhost : ∀ i ∈ is, i.format ≠ .ev ∧ ∀ w, i ≠ .wrInit w) (hrun : execAll is s = .next t) :
    execAll is (withHidden a b la lb o n s) = .next (withHidden a b la lb o n t) := by
  induction is generalizing s with
  | nil =>
    cases hrun
    rfl
  | cons i is ih =>
    obtain ⟨hev, hinit⟩ := hhost i List.mem_cons_self
    rw [execAll_cons] at hrun ⊢
    rw [effect_withHidden hev hinit]
    exact ih (fun j hj => hhost j (List.mem_cons_of_mem i hj)) hrun

/-- Settles O52: the second run is the first with the hidden elements replaced throughout. -/
theorem hiddenStateIsInvisibleToTheHost : Obligations.HiddenStateIsInvisibleToTheHost := by
  intro is s t u a b la lb o n hhost hs hu
  have hrun := execAll_withHidden a b la lb o n hhost hs
  exact Host.Outcome.next.inj (hu.symm.trans hrun)

/-! ## The consistency invariant -/

/-- A Reading is a composition under one of the two orientations, whatever REV is. -/
theorem compose_under_some_orientation (a b rev : Bool) :
    compose a b rev = compose a b false ∨ compose a b rev = compose a b true := by
  cases rev
  · exact .inl rfl
  · exact .inr rfl

/-- An armed state is consistent when its lines are capable, it shows no error and NEW_RD follows the levels. -/
theorem consistent_of_armed {s : State} (harmed : s.armed = true) (herr : s.cfgErr = false)
    (hcap : s.cfg.edgeCapA = true ∧ s.cfg.edgeCapB = true) (hrd : s.newRd = compose s.lvlA s.lvlB s.rev) :
    s.Consistent := by
  refine ⟨?_, fun _ => hcap, ?_, ?_, ?_⟩
  · simp [herr]
  · simp [herr]
  · rw [hrd]
    exact compose_under_some_orientation _ _ _
  · simp [harmed]

/-- The invariant does not speak of the response. -/
theorem consistent_respond {s : State} (h : s.Consistent) (v : Word) : (respond v s).Consistent := h

theorem consistent_quiet {s : State} (h : s.Consistent) : (quiet s).Consistent := h

/-- The invariant does not speak of the inputs and the deliveries. -/
theorem consistent_accept {s : State} (h : s.Consistent) (d : Delivery) (rest : List Delivery) :
    (accept d rest s).Consistent := h

/-- The invariant allows both orientations. -/
theorem consistent_toggleRev {s : State} (h : s.Consistent) : (toggleRev s).Consistent := h

theorem consistent_takeSnapshot {s : State} (h : s.Consistent) : (takeSnapshot s).Consistent := by
  obtain ⟨hexcl, hcap, hincap, hrd, hinit⟩ := h
  refine ⟨hexcl, hcap, hincap, hrd, fun hu => ?_⟩
  obtain ⟨ha, hb, ho, hn, hc, -⟩ := hinit hu
  exact ⟨ha, hb, ho, hn, hc, hc⟩

theorem consistent_edge {s : State} (h : s.Consistent) (eA eB : Bool) : (edge eA eB s).Consistent := by
  obtain ⟨-, he⟩ | ⟨harmed, k, he⟩ := edge_cases eA eB s
  · rwa [he]
  · obtain ⟨hexcl, hcap, -, -, -⟩ := h
    have herr : s.cfgErr = false := by
      by_contra hne
      simp [hexcl (by simpa using hne)] at harmed
    rw [he]
    exact consistent_of_armed harmed herr (hcap harmed) rfl

theorem consistent_initOperation {s : State} (h : s.Consistent) : (initOperation s).Consistent := by
  obtain ⟨-, hi⟩ | ⟨-, hc, hi⟩ | ⟨hunarmed, hc, hi⟩ := initOperation_cases s
  · rwa [hi]
  · rw [hi]
    exact consistent_of_armed rfl rfl (linesCapable_eq_true_iff.mp hc) rfl
  · obtain ⟨-, hcap, -, hrd, hinit⟩ := h
    rw [hi]
    exact ⟨fun _ => hunarmed, hcap, fun _ => linesCapable_eq_false_iff.mp hc, hrd, hinit⟩

/-- RESET makes any state consistent (70_reset_and_hazards.md R118). -/
theorem consistent_resetTransaction (s : State) : (resetTransaction s).Consistent := by
  have hrd : (0 : Reading) = compose false false false := by decide
  exact ⟨nofun, nofun, nofun, .inl hrd, fun _ => ⟨rfl, rfl, rfl, rfl, rfl, rfl⟩⟩

/-- Every transaction keeps consistency. -/
theorem consistent_effect {s : State} (h : s.Consistent) (i : Instr) : (effect i s).Consistent := by
  cases i with
  | rdMotion => exact consistent_respond (consistent_takeSnapshot h) _
  | wrReverse _ => exact consistent_quiet (consistent_toggleRev h)
  | wrInit _ => exact consistent_quiet (consistent_initOperation h)
  | edgeA | edgeB | edgeAB => exact consistent_quiet (consistent_edge h _ _)
  | rdCount | rdOldCount | rdStatus | rdRazCommand _ | rdRazReservedLow _ | rdRazReservedHigh _ =>
    exact consistent_respond h _
  | wrIgnoredReadOnly _ _ | wrIgnoredReservedLow _ _ | wrIgnoredReservedHigh _ _ => exact consistent_quiet h

/-- Settles O56: the post-RESET state is what RESET leaves of it. -/
theorem resetIsConsistent : Obligations.ResetIsConsistent :=
  consistent_resetTransaction State.reset

/-- Settles O57: a step idles, resets, or runs a transaction on the accepted delivery. -/
theorem everyStepKeepsConsistency : Obligations.EveryStepKeepsConsistency := by
  intro s t h hstep
  obtain ⟨-, rfl⟩ | ⟨d, rest, -, -, rfl⟩ | ⟨d, rest, tw, wdata, i, -, -, -, rfl⟩ := step_next_cases hstep
  · exact h
  · exact consistent_resetTransaction _
  · exact consistent_effect (consistent_accept h d rest) i

/-! ## The writers of each element -/

section Writers

variable {i : Instr} {s : State}

theorem effect_lvlA_writer (h : (effect i s).lvlA ≠ s.lvlA) : i = .edgeA ∨ i = .edgeAB ∨ ∃ w, i = .wrInit w := by
  cases i with
  | edgeA => exact .inl rfl
  | edgeAB => exact .inr (.inl rfl)
  | wrInit w => exact .inr (.inr ⟨w, rfl⟩)
  | edgeB => simp [effect] at h
  | _ => exact absurd rfl h

theorem effect_lvlB_writer (h : (effect i s).lvlB ≠ s.lvlB) : i = .edgeB ∨ i = .edgeAB ∨ ∃ w, i = .wrInit w := by
  cases i with
  | edgeB => exact .inl rfl
  | edgeAB => exact .inr (.inl rfl)
  | wrInit w => exact .inr (.inr ⟨w, rfl⟩)
  | edgeA => simp [effect] at h
  | _ => exact absurd rfl h

theorem effect_readings_writer (h : (effect i s).oldRd ≠ s.oldRd ∨ (effect i s).newRd ≠ s.newRd) :
    i.format = .ev ∨ ∃ w, i = .wrInit w := by
  cases i with
  | edgeA | edgeB | edgeAB => exact .inl rfl
  | wrInit w => exact .inr ⟨w, rfl⟩
  | _ => exact h.elim (absurd rfl) (absurd rfl)

theorem effect_cntVal_writer (h : (effect i s).cntVal ≠ s.cntVal) : i = .edgeA ∨ i = .edgeB := by
  cases i with
  | edgeA => exact .inl rfl
  | edgeB => exact .inr rfl
  | edgeAB => exact absurd (edge_both_cntVal s) h
  | _ =>
    refine absurd (effect_cntVal ?_ s) h
    nofun

theorem effect_snapVal_writer (h : (effect i s).snapVal ≠ s.snapVal) : i = .rdMotion := by
  by_contra hi
  exact h (effect_snapVal hi s)

theorem effect_rev_writer (h : (effect i s).rev ≠ s.rev) : ∃ w, i = .wrReverse w := by
  cases i with
  | wrReverse w => exact ⟨w, rfl⟩
  | wrInit _ | edgeA | edgeB | edgeAB => simp [effect] at h
  | _ => exact absurd rfl h

theorem effect_flags_writer (h : (effect i s).armed ≠ s.armed ∨ (effect i s).cfgErr ≠ s.cfgErr) :
    ∃ w, i = .wrInit w := by
  cases i with
  | wrInit w => exact ⟨w, rfl⟩
  | edgeA | edgeB | edgeAB => simp [effect] at h
  | _ => exact h.elim (absurd rfl) (absurd rfl)

end Writers

@[simp] theorem effect_lineA (i : Instr) (s : State) : (effect i s).lineA = s.lineA := by
  cases i <;> simp [effect]

@[simp] theorem effect_lineB (i : Instr) (s : State) : (effect i s).lineB = s.lineB := by
  cases i <;> simp [effect]

/-- An armed edge on channel A toggles LVL_A. -/
theorem effect_toggles_lvlA {i : Instr} {s : State} (h : s.armed = true) (hi : i = .edgeA ∨ i = .edgeAB) :
    (effect i s).lvlA = !s.lvlA := by
  obtain rfl | rfl := hi <;> simp [effect, h]

/-- An armed edge on channel B toggles LVL_B. -/
theorem effect_toggles_lvlB {i : Instr} {s : State} (h : s.armed = true) (hi : i = .edgeB ∨ i = .edgeAB) :
    (effect i s).lvlB = !s.lvlB := by
  obtain rfl | rfl := hi <;> simp [effect, h]

/-- Settles O36 by the writers of the two levels. -/
theorem levelsAreOwnedByTheirChannel : Obligations.LevelsAreOwnedByTheirChannel := by
  intro s t i h
  obtain rfl := exec_next_iff.mp h
  exact ⟨effect_lvlA_writer, effect_lvlB_writer, effect_toggles_lvlA, effect_toggles_lvlB⟩

/-- Settles O37, one writer lemma per element. -/
theorem eachElementHasOnlyItsWriters : Obligations.EachElementHasOnlyItsWriters := by
  intro i s t h
  obtain rfl := exec_next_iff.mp h
  refine ⟨effect_lvlA_writer, effect_lvlB_writer, effect_readings_writer, fun hc => ?_, effect_snapVal_writer,
    effect_rev_writer, effect_flags_writer, effect_cfg i s, effect_lineA i s, effect_lineB i s, effect_pending i s⟩
  obtain rfl | rfl := effect_cntVal_writer hc <;> rfl

/-! ## ARMED -/

/-- Only the `rst` strobe forms RESET (20_memory.md R35). -/
theorem formTransaction_eq_reset {cfg : Config} {r : Request} (h : formTransaction cfg r = .ok .reset) : r = .rst := by
  cases r with
  | rst => rfl
  | bus we addr nbytes wdata =>
    simp only [formTransaction] at h
    split at h <;> cases h
  | _ => cases h

/-- Initialization arms capable lines only (41_host.md R93). -/
theorem linesCapable_of_initOperation_arms {s : State} (h : s.armed = false) (ht : (initOperation s).armed = true) :
    linesCapable s.cfg = true := by
  obtain ⟨harmed, -⟩ | ⟨-, hc, -⟩ | ⟨-, -, hi⟩ := initOperation_cases s
  · simp [h] at harmed
  · exact hc
  · simp [hi, h] at ht

/-- Only WR_INIT arms, and only with both lines capable (10_state.md R24). -/
theorem effect_arms {i : Instr} {s : State} (h : s.armed = false) (ht : (effect i s).armed = true) :
    linesCapable s.cfg = true ∧ ∃ w, i = .wrInit w := by
  obtain ⟨w, rfl⟩ : ∃ w, i = .wrInit w := effect_flags_writer (s := s) (.inl (by simp [h, ht]))
  exact ⟨linesCapable_of_initOperation_arms h ht, w, rfl⟩

/-- Settles O19: of the three things a step can do, only RESET clears ARMED and only the run of a WR_INIT sets it. -/
theorem armedIsClearedOnlyByResetAndSetOnlyByInit : Obligations.ArmedIsClearedOnlyByResetAndSetOnlyByInit := by
  intro s t hstep
  obtain ⟨-, rfl⟩ | ⟨d, rest, hp, hf, rfl⟩ | ⟨d, rest, tw, wdata, i, hp, hf, hd, rfl⟩ := step_next_cases hstep
  · exact ⟨fun h h' => absurd (h.symm.trans h') nofun, fun h h' => absurd (h.symm.trans h') nofun⟩
  · exact ⟨fun _ _ => ⟨d, rest, hp, formTransaction_eq_reset hf⟩, fun _ h' => absurd h' nofun⟩
  · constructor
    · intro h h'
      have hkept : (effect i (accept d rest s)).armed = true :=
        effect_armed (s := accept d rest s) h i
      exact absurd (hkept.symm.trans h') nofun
    · intro h h'
      obtain ⟨hc, w, rfl⟩ := effect_arms (s := accept d rest s) h h'
      obtain ⟨hcapA, hcapB⟩ := linesCapable_eq_true_iff.mp hc
      exact ⟨hcapA, hcapB, d, rest, tw, wdata, w, hp, hf, hd⟩

/-! ## The counter's range -/

/-- An integer in the range of a W-bit pattern is the value of the pattern it wraps to. -/
theorem sval_wrap_of_inRange {w : Nat} (hw : 0 < w) {n : Int} (hlo : -2 ^ (w - 1) ≤ n) (hhi : n < 2 ^ (w - 1)) :
    sval (wrap w n) = n := by
  have hpow := mul_pow_sub_one hw.ne' (2 : Int)
  rw [sval_wrap]
  apply Int.bmod_eq_of_le_mul_two <;> push_cast <;> omega

/-- One up from any pattern, with the wrap at the top (10_state.md R21). -/
theorem sval_countStep_one {w : Nat} (hw : 0 < w) (c : BitVec w) :
    sval (countStep 1 c) = if sval c = 2 ^ (w - 1) - 1 then -2 ^ (w - 1) else sval c + 1 := by
  have hpow := mul_pow_sub_one hw.ne' (2 : Int)
  obtain ⟨hlo, hhi⟩ := sval_bounds c
  rw [countStep_one]
  split
  case isTrue htop =>
    have hturn : sval c + 1 = -2 ^ (w - 1) + 2 ^ w := by omega
    rw [wrap_eq_of_emod_eq (n := -2 ^ (w - 1)) (by rw [hturn, Int.add_emod_right])]
    exact sval_wrap_of_inRange hw (by omega) (by omega)
  case isFalse => exact sval_wrap_of_inRange hw (by omega) (by omega)

/-- One down from any pattern, with the wrap at the bottom (10_state.md R21). -/
theorem sval_countStep_negOne {w : Nat} (hw : 0 < w) (c : BitVec w) :
    sval (countStep (-1) c) = if sval c = -2 ^ (w - 1) then 2 ^ (w - 1) - 1 else sval c - 1 := by
  have hpow := mul_pow_sub_one hw.ne' (2 : Int)
  obtain ⟨hlo, hhi⟩ := sval_bounds c
  rw [countStep_negOne]
  split
  case isTrue hbottom =>
    have hturn : 2 ^ (w - 1) - 1 = sval c + -1 + 2 ^ w := by omega
    rw [wrap_eq_of_emod_eq (n := 2 ^ (w - 1) - 1) (by rw [hturn, Int.add_emod_right])]
    exact sval_wrap_of_inRange hw (by omega) (by omega)
  case isFalse => exact sval_wrap_of_inRange hw (by omega) (by omega)

theorem cntW_pos (cfg : Config) : 0 < cfg.cntW := Nat.lt_of_lt_of_le Nat.zero_lt_two cfg.cntW_ge

/-- A single edge is an `edge` on its channel, with no response. -/
theorem effect_singleEdge {i : Instr} (hi : i = .edgeA ∨ i = .edgeB) :
    ∃ eA eB, ∀ s, effect i s = quiet (edge eA eB s) := by
  obtain rfl | rfl := hi
  · exact ⟨true, false, fun _ => rfl⟩
  · exact ⟨false, true, fun _ => rfl⟩

@[simp] theorem quiet_cntVal (s : State) : (quiet s).cntVal = s.cntVal := rfl

theorem resetTransaction_cntVal (s : State) : (resetTransaction s).cntVal = 0 := BitVec.toInt_zero

theorem step_of_fetch_reset {s t : State} (h : fetch s = .reset t) : step s = .next (resetTransaction t) := by
  simp [step, h]

/-- Settles O30: a single edge steps the counter by the entry it looks up, the writer lemma excludes every other
transaction, and RESET writes 0. -/
theorem counterWrapsAndHasNoOtherWriter : Obligations.CounterWrapsAndHasNoOtherWriter := by
  refine ⟨?_, ?_, ?_⟩
  · intro s t i harmed hi h
    obtain ⟨eA, eB, hedge⟩ := effect_singleEdge hi
    obtain ⟨hlo, hhi⟩ := sval_bounds s.cnt
    rw [exec_next_iff, hedge] at h
    subst h
    refine ⟨hlo, hhi, fun hup => ?_, fun hdown => ?_⟩
    · rw [quiet_cntVal, edge_cntVal harmed, ← quiet_oldRd, ← quiet_newRd, hup]
      exact sval_countStep_one (cntW_pos s.cfg) s.cnt
    · rw [quiet_cntVal, edge_cntVal harmed, ← quiet_oldRd, ← quiet_newRd, hdown]
      exact sval_countStep_negOne (cntW_pos s.cfg) s.cnt
  · intro s t i h hne
    obtain rfl := exec_next_iff.mp h
    exact effect_cntVal_writer hne
  · intro s t d rest hp hr hstep
    rw [step_of_fetch_reset (fetch_rst hp hr)] at hstep
    cases hstep
    exact resetTransaction_cntVal _

/-! ## The Readings -/

/-- Two Readings under one orientation differ in the composition of the channels that toggled. -/
theorem compose_xor_toggled (a b eA eB rev : Bool) :
    compose a b rev ^^^ compose (a ^^ eA) (b ^^ eB) rev = compose eA eB rev := by
  revert a b eA eB rev; decide

theorem edge_readings_xor {s : State} (h : s.armed = true) (eA eB : Bool) :
    (edge eA eB s).oldRd ^^^ (edge eA eB s).newRd = compose eA eB s.rev := by
  obtain ⟨hold, hnew⟩ := edge_readings h eA eB
  rw [hold, hnew, compose_xor_toggled]

/-- NEW_RD is the composition of the stored levels under the current REV (10_state.md R30 (b)). -/
def State.ReadingFollowsLevels (s : State) : Prop := s.newRd = compose s.lvlA s.lvlB s.rev

theorem readingFollowsLevels_edge {s : State} (h : s.ReadingFollowsLevels) (eA eB : Bool) :
    (edge eA eB s).ReadingFollowsLevels := by
  obtain ⟨-, he⟩ | ⟨-, k, he⟩ := edge_cases eA eB s
  · rwa [he]
  · rw [he]
    rfl

theorem readingFollowsLevels_initOperation {s : State} (h : s.ReadingFollowsLevels) :
    (initOperation s).ReadingFollowsLevels := by
  obtain ⟨-, hi⟩ | ⟨-, -, hi⟩ | ⟨-, -, hi⟩ := initOperation_cases s
  · rwa [hi]
  · rw [hi]
    rfl
  · rw [hi]
    exact h

theorem readingFollowsLevels_effect (i : Instr) (s : State) (hi : ∀ w, i ≠ .wrReverse w)
    (h : s.ReadingFollowsLevels) : (effect i s).ReadingFollowsLevels := by
  cases i with
  | wrReverse w => exact absurd rfl (hi w)
  | wrInit _ => exact readingFollowsLevels_initOperation h
  | edgeA | edgeB | edgeAB => exact readingFollowsLevels_edge h _ _
  | _ => exact h

/-- Settles O38: the toggled channels by `edge_readings_xor`, and NEW_RD by the invariant of every transaction but
WR_REVERSE. -/
theorem readingsRecordTheLastEdge : Obligations.ReadingsRecordTheLastEdge := by
  constructor
  · intro s t harmed
    refine ⟨?_, ?_, ?_⟩
    all_goals
      intro h
      obtain rfl := exec_next_iff.mp h
      refine (edge_readings_xor harmed _ _).trans ?_
      cases s.rev <;> rfl
  · intro s t is _ hrd hi hrun
    exact execAll_keeps State.ReadingFollowsLevels _ readingFollowsLevels_effect is s t hi hrd hrun

/-! ## The transition ROM -/

theorem romIndex_toNat (o n : Reading) : (romIndex o n).toNat = o.toNat * 4 + n.toNat := by
  revert o n; decide

theorem rom_eq_zero_iff (o n : Reading) : rom (romIndex o n) = 0 ↔ o = n := by
  revert o n; decide

theorem rom_eq_two_iff (o n : Reading) : rom (romIndex o n) = 2 ↔ o ^^^ n = 3 := by
  revert o n; decide

theorem rom_eq_one_iff (o n : Reading) :
    rom (romIndex o n) = 1 ↔ (o, n) ∈ [((0 : Reading), (2 : Reading)), (2, 3), (3, 1), (1, 0)] := by
  revert o n; decide

theorem rom_eq_negOne_iff (o n : Reading) :
    rom (romIndex o n) = -1 ↔ (o, n) ∈ [((0 : Reading), (1 : Reading)), (1, 3), (3, 2), (2, 0)] := by
  revert o n; decide

theorem rom_unit_iff_adjacent (o n : Reading) :
    (rom (romIndex o n) = 1 ∨ rom (romIndex o n) = -1) ↔ (o ^^^ n = 1 ∨ o ^^^ n = 2) := by
  revert o n; decide

theorem rom_swap_of_adjacent (o n : Reading) (h : o ^^^ n = 1 ∨ o ^^^ n = 2) :
    rom (romIndex n o) = -rom (romIndex o n) := by
  revert o n; decide

/-- Settles O21: the index by its two fields, and the sixteen entries read in order. -/
theorem romHoldsTheSourceLiteral : Obligations.RomHoldsTheSourceLiteral :=
  ⟨romIndex_toNat, by decide⟩

/-- Settles O22, one lemma per clause of R28. -/
theorem romFollowsTheGrayCodeGraph : Obligations.RomFollowsTheGrayCodeGraph := by
  intro o n
  exact ⟨rom_eq_zero_iff o n, rom_unit_iff_adjacent o n, rom_eq_two_iff o n, rom_swap_of_adjacent o n,
    rom_eq_one_iff o n, rom_eq_negOne_iff o n⟩

end Sys2Proof.Machine
end

section
/-! The memory statements (20_memory.md): which transaction a strobe or a bus access forms, the deliveries completed in
their order, the register map, and what a repeated access does. -/

namespace Sys2Proof.Machine

/-! ## Which words decode -/

theorem decode_hostRead {tw : TW} (hz : zOf tw = 0) (hk : kindOf tw = .hostRead) (wdata : Word) :
    decode tw wdata = .ok (decodeRead (selOf tw)) := by
  simp [decode, hz, hk]

theorem decode_hostWrite {tw : TW} (hz : zOf tw = 0) (hk : kindOf tw = .hostWrite) (wdata : Word) :
    decode tw wdata = .ok (decodeWrite (selOf tw) wdata) := by
  simp [decode, hz, hk]

/-- A host strobe's word carries KIND by `h_we`, Z = 0 and SEL = `h_off` (20_memory.md R35). -/
theorem hostWord_fields (we : Bool) (off : Offset) :
    zOf (hostWord we off) = 0 ∧ kindOf (hostWord we off) = (if we then .hostWrite else .hostRead) ∧
      selOf (hostWord we off) = off := by
  revert we off; decide

theorem decode_hostWord_read (off : Offset) (wdata : Word) :
    decode (hostWord false off) wdata = .ok (decodeRead off) := by
  obtain ⟨hz, hk, hsel⟩ := hostWord_fields false off
  rw [decode_hostRead hz hk, hsel]

theorem decode_hostWord_write (off : Offset) (wdata : Word) :
    decode (hostWord true off) wdata = .ok (decodeWrite off wdata) := by
  obtain ⟨hz, hk, hsel⟩ := hostWord_fields true off
  rw [decode_hostWrite hz hk, hsel]

theorem exists_decode_hostWord (we : Bool) (off : Offset) (wdata : Word) :
    ∃ i, decode (hostWord we off) wdata = .ok i := by
  cases we with
  | false => exact ⟨_, decode_hostWord_read off wdata⟩
  | true => exact ⟨_, decode_hostWord_write off wdata⟩

/-- The edge transaction of a strobe with at least one event (20_memory.md R35). -/
def strobedEdge (evA evB : Bool) : Instr := if evA && evB then .edgeAB else if evA then .edgeA else .edgeB

theorem decode_edgeWord {evA evB : Bool} (h : (evA || evB) = true) (wdata : Word) :
    decode (edgeWord evA evB) wdata = .ok (strobedEdge evA evB) := by
  match evA, evB, h with
  | true, false, _ => rfl
  | false, true, _ => rfl
  | true, true, _ => rfl

/-- The well-formed words of 30_encoding.md R61 decode. -/
theorem exists_decode_of_wellFormed {tw : TW} (wdata : Word)
    (h : tw.toNat < 0x10 ∨ (0x40 ≤ tw.toNat ∧ tw.toNat < 0x50) ∨ (0x81 ≤ tw.toNat ∧ tw.toNat ≤ 0x83)) :
    ∃ i, decode tw wdata = .ok i := by
  obtain hread | hwrite | hedge := h
  · have hword : tw = hostWord false (selOf tw) := by revert tw; decide
    rw [hword]
    exact exists_decode_hostWord _ _ wdata
  · have hword : tw = hostWord true (selOf tw) := by revert tw; decide
    rw [hword]
    exact exists_decode_hostWord _ _ wdata
  · have hword : ∃ evA evB, (evA || evB) = true ∧ tw = edgeWord evA evB := by revert tw; decide
    obtain ⟨evA, evB, hev, rfl⟩ := hword
    exact ⟨_, decode_edgeWord hev wdata⟩

/-! ## Which offset a bus access reaches -/

/-- Offset `k` is at byte address `base + 4*k` (20_memory.md R50). -/
theorem busOffset_register (base : Nat) {k : Nat} (hk : k < 16) :
    busOffset base (base + 4 * k) 4 = .ok (BitVec.ofNat 4 k) := by
  have hwhole : ¬ (4 ≠ 4 ∨ (base + 4 * k) % 4 ≠ base % 4) := by omega
  have hinside : ¬ (base + 4 * k < base ∨ base + 64 ≤ base + 4 * k) := by omega
  have hindex : (base + 4 * k - base) / 4 = k := by omega
  rw [busOffset, if_neg hwhole, if_neg hinside, hindex]

theorem busOffset_notWhole {base addr nbytes : Nat} (h : nbytes ≠ 4 ∨ addr % 4 ≠ base % 4) :
    busOffset base addr nbytes = .error .busNotWholeRegister :=
  if_pos h

theorem busOffset_outside {base addr : Nat} (halign : addr % 4 = base % 4) (h : addr < base ∨ base + 64 ≤ addr) :
    busOffset base addr 4 = .error .busOutsideBlock := by
  have hwhole : ¬ (4 ≠ 4 ∨ addr % 4 ≠ base % 4) := by omega
  rw [busOffset, if_neg hwhole, if_pos h]

theorem formTransaction_bus_register (cfg : Config) (we : Bool) {k : Nat} (hk : k < 16) (wdata : Word) :
    formTransaction cfg (.bus we (cfg.qdecBase + 4 * k) 4 wdata) =
      formTransaction cfg (.host we (BitVec.ofNat 4 k) wdata) := by
  simp [formTransaction, busOffset_register _ hk]

theorem formTransaction_bus_error {cfg : Config} {addr nbytes : Nat} {r : Refusal}
    (h : busOffset cfg.qdecBase addr nbytes = .error r) (we : Bool) (wdata : Word) :
    formTransaction cfg (.bus we addr nbytes wdata) = .error r := by
  simp [formTransaction, h]

/-- The four byte lanes, lane 0 lowest, are the whole register (20_memory.md R50). -/
theorem eq_append_busLanes (v : Word) : v = busLane v 3 ++ busLane v 2 ++ busLane v 1 ++ busLane v 0 := by
  symm
  simp only [busLane]
  rw [BitVec.extractLsb'_append_extractLsb'_eq_extractLsb' (by decide),
    BitVec.extractLsb'_append_extractLsb'_eq_extractLsb' (by decide),
    BitVec.extractLsb'_append_extractLsb'_eq_extractLsb' (by decide)]
  exact BitVec.extractLsb'_eq_self

/-! ## A step, by the transaction its delivery forms -/

theorem exec_completes (i : Instr) (s : State) : ∃ t, exec i s = .next t := ⟨_, exec_eq_effect i s⟩

theorem exec_pending {i : Instr} {s t : State} (h : exec i s = .next t) : t.pending = s.pending := by
  rw [exec_next_iff.mp h, effect_pending]

/-- A step looks at a request only through the transaction it forms. -/
theorem step_eq_of_formTransaction_eq {s : State} {la lb : Bool} {r r' : Request} {rest : List Delivery}
    (hp : s.pending = ⟨la, lb, r⟩ :: rest) (hf : formTransaction s.cfg r = formTransaction s.cfg r') :
    step s = step { s with pending := ⟨la, lb, r'⟩ :: rest } := by
  simp only [step, fetch, hp, hf]
  rcases formTransaction s.cfg r' with _ | ⟨_ | ⟨tw, wdata⟩⟩
  · rfl
  · rfl
  · dsimp only
    rcases decode tw wdata with _ | _ <;> rfl

theorem step_eq_refused {s : State} {d : Delivery} {rest : List Delivery} {r : Refusal}
    (hp : s.pending = d :: rest) (hf : formTransaction s.cfg d.req = .error r) : step s = .refused r := by
  simp [step, fetch, hp, hf]

theorem step_edges {s : State} {la lb evA evB : Bool} {rest : List Delivery} (hev : (evA || evB) = true)
    (hp : s.pending = ⟨la, lb, .edges evA evB⟩ :: rest) :
    step s = exec (strobedEdge evA evB) { s with lineA := la, lineB := lb, pending := rest } :=
  step_of_fetch_run (fetch_run hp rfl (decode_edgeWord hev 0))

/-- A request that spells a transaction forms RESET or a word that decodes. -/
theorem formTransaction_of_admissible {cfg : Config} {r : Request} (h : r.admissible cfg = true) :
    formTransaction cfg r = .ok .reset ∨
      ∃ tw wdata i, formTransaction cfg r = .ok (.word tw wdata) ∧ decode tw wdata = .ok i := by
  cases r with
  | rst => exact .inl rfl
  | host we off wdata =>
    obtain ⟨i, hi⟩ := exists_decode_hostWord we off wdata
    exact .inr ⟨_, _, i, rfl, hi⟩
  | edges evA evB => exact .inr ⟨_, _, _, rfl, decode_edgeWord h 0⟩
  | word tw wdata =>
    obtain ⟨i, hi⟩ := exists_decode_of_wellFormed wdata (of_decide_eq_true h)
    exact .inr ⟨_, _, i, rfl, hi⟩
  | bus we addr nbytes wdata =>
    obtain ⟨rfl, hlo, hhi, halign⟩ := of_decide_eq_true h
    obtain ⟨k, hk, rfl⟩ : ∃ k < 16, addr = cfg.qdecBase + 4 * k :=
      ⟨(addr - cfg.qdecBase) / 4, by omega, by omega⟩
    obtain ⟨i, hi⟩ := exists_decode_hostWord we (BitVec.ofNat 4 k) wdata
    exact .inr ⟨_, _, i, formTransaction_bus_register cfg we hk wdata, hi⟩

/-- A delivery that spells a transaction is completed by one step, which takes it off the front (20_memory.md R55). -/
theorem step_of_admissible {s : State} {d : Delivery} {rest : List Delivery} (hp : s.pending = d :: rest)
    (h : d.req.admissible s.cfg = true) : step s = .next { applyDelivery s d with pending := rest } := by
  have hnext : ∃ t, step s = .next t := by
    obtain hf | ⟨tw, wdata, i, hf, hd⟩ := formTransaction_of_admissible h
    · exact ⟨_, step_of_fetch_reset (fetch_rst hp (formTransaction_eq_reset hf))⟩
    · rw [step_of_fetch_run (fetch_run hp hf hd)]
      exact exec_completes i _
  obtain ⟨t, ht⟩ := hnext
  rw [ht, step_next_applyDelivery hp ht]

/-! ## The deliveries, one after another -/

@[simp] theorem applyDelivery_cfg (s : State) (d : Delivery) : (applyDelivery s d).cfg = s.cfg := by
  rcases hf : formTransaction s.cfg d.req with r | ⟨_ | ⟨tw, wdata⟩⟩
  · rw [applyDelivery_none hf]
  · rw [applyDelivery_reset hf, resetTransaction_cfg]
  · rcases hd : decode tw wdata with why | i
    · rw [applyDelivery_illFormed hf hd]
    · rw [applyDelivery_word hf hd, effect_cfg]

/-- What a row of deliveries does does not depend on what stands in the list, and leaves it (log 2). -/
theorem foldl_applyDelivery_setPending (ds ps : List Delivery) (s : State) :
    ds.foldl applyDelivery { s with pending := ps } = { ds.foldl applyDelivery s with pending := ps } := by
  induction ds generalizing s with
  | nil => rfl
  | cons d ds ih => rw [List.foldl_cons, applyDelivery_setPending, ih, List.foldl_cons]

theorem run_succ_of_step {s t : State} (h : step s = .next t) (k : Nat) :
    Host.Core.run core (k + 1) s = Host.Core.run core k t := by
  have hcore : core.step s = .next t := h
  simp only [Host.Core.run, hcore]

/-- Settles O15, by induction on the number of steps: each completes the front delivery, and what the later ones do
does not depend on the list they stand in. -/
theorem deliveredTransactionsCompleteInOrder : Obligations.DeliveredTransactionsCompleteInOrder := by
  intro s k hall hk
  induction k generalizing s with
  | zero => rfl
  | succ k ih =>
    obtain ⟨d, rest, hp⟩ : ∃ d rest, s.pending = d :: rest := List.exists_cons_of_length_pos (by omega)
    rw [hp] at hall hk
    have hrest : ∀ e ∈ rest, e.req.admissible (applyDelivery s d).cfg = true := by
      intro e he
      rw [applyDelivery_cfg]
      exact hall e (List.mem_cons_of_mem d he)
    rw [run_succ_of_step (step_of_admissible hp (hall d List.mem_cons_self)), ih _ hrest (Nat.le_of_succ_le_succ hk),
      foldl_applyDelivery_setPending, hp]
    rfl

/-! ## Strobes and bus accesses -/

theorem hostWord_eq_ofNat (we : Bool) (off : Offset) :
    hostWord we off = BitVec.ofNat 8 (64 * we.toNat + off.toNat) := by
  revert we off; decide

theorem edgeWord_eq_ofNat (evA evB : Bool) :
    edgeWord evA evB = BitVec.ofNat 8 (128 + 2 * evB.toNat + evA.toNat) := by
  revert evA evB; decide

/-- Settles O11: each strobe forms its word, and two strobes of one event each are two steps that each run one edge. -/
theorem strobesFormTheirTransactions : Obligations.StrobesFormTheirTransactions := by
  refine ⟨?_, ?_, ?_⟩
  · intro s la lb we off wdata rest hp
    rw [← hostWord_eq_ofNat]
    exact step_eq_of_formTransaction_eq hp rfl
  · intro s la lb evA evB rest hev hp
    rw [← edgeWord_eq_ofNat]
    exact ⟨step_eq_of_formTransaction_eq hp rfl, step_edges hev hp⟩
  · intro s la lb la' lb' aFirst rest hp
    have hfirst : strobedEdge aFirst (!aFirst) = if aFirst then .edgeA else .edgeB := by cases aFirst <;> rfl
    have hsecond : strobedEdge (!aFirst) aFirst = if aFirst then .edgeB else .edgeA := by cases aFirst <;> rfl
    obtain ⟨t, ht⟩ := exec_completes (if aFirst then .edgeA else .edgeB)
      { s with lineA := la, lineB := lb, pending := ⟨la', lb', .edges (!aFirst) aFirst⟩ :: rest }
    obtain ⟨u, hu⟩ := exec_completes (if aFirst then .edgeB else .edgeA)
      { t with lineA := la', lineB := lb', pending := rest }
    have hstep : step s = .next t := by rw [step_edges (Bool.or_not_self aFirst) hp, hfirst, ht]
    have hstep' : step t = .next u := by
      rw [step_edges (Bool.not_or_self aFirst) (exec_pending ht), hsecond, hu]
    exact ⟨t, u, hstep, hstep', exec_pending hu, ht, hu⟩

/-- Settles O12, one lemma on `busOffset` per case of the address and the size. -/
theorem busAccessesReachWholeRegistersOnly : Obligations.BusAccessesReachWholeRegistersOnly := by
  intro s la lb we addr nbytes wdata rest hp
  refine ⟨?_, ?_, ?_, eq_append_busLanes⟩
  · rintro k hk rfl rfl
    exact step_eq_of_formTransaction_eq hp (formTransaction_bus_register s.cfg we hk wdata)
  · intro hpart
    exact step_eq_refused hp (formTransaction_bus_error (busOffset_notWhole hpart) we wdata)
  · rintro ⟨rfl, halign, hout⟩
    exact step_eq_refused hp (formTransaction_bus_error (busOffset_outside halign hout) we wdata)

/-! ## The register map -/

/-- The read of each offset (20_memory.md R38). -/
theorem decodeRead_cases (off : Offset) :
    (off = 0x0 ∧ decodeRead off = .rdCount) ∨ (off = 0x1 ∧ decodeRead off = .rdOldCount) ∨
    (off = 0x2 ∧ decodeRead off = .rdMotion) ∨ (off = 0x3 ∧ decodeRead off = .rdStatus) ∨
    (0x4 ≤ off.toNat ∧
      decodeRead off ∈ [Instr.rdRazCommand off, .rdRazReservedLow off, .rdRazReservedHigh off]) := by
  revert off; decide

/-- What a host read at `off` answers (20_memory.md R38 to R42). -/
def registerValue (off : Offset) (s : State) : Word :=
  match off.toNat with
  | 0 => countValue s
  | 1 => oldCountValue s
  | 2 => motionValue s
  | 3 => statusValue s
  | _ => 0

theorem registerValue_raz {off : Offset} (h : 0x4 ≤ off.toNat) (s : State) : registerValue off s = 0 := by
  unfold registerValue
  split
  case h_5 => rfl
  all_goals omega

/-- A read at an offset from 0x4 on answers 0 (41_host.md R94). -/
theorem effect_raz {i : Instr} {off : Offset}
    (hi : i ∈ [Instr.rdRazCommand off, .rdRazReservedLow off, .rdRazReservedHigh off]) (s : State) :
    effect i s = respond 0 s := by
  simp only [List.mem_cons, List.not_mem_nil, or_false] at hi
  obtain rfl | rfl | rfl := hi <;> rfl

/-- A read answers its register's value, and only MOTION's also writes, SNAP. -/
theorem effect_decodeRead (off : Offset) (s : State) :
    effect (decodeRead off) s =
      { s with snap := if off = 0x2 then s.cnt else s.snap, rdata := some (registerValue off s) } := by
  obtain ⟨rfl, hi⟩ | ⟨rfl, hi⟩ | ⟨rfl, hi⟩ | ⟨rfl, hi⟩ | ⟨hoff, hi⟩ := decodeRead_cases off
  · rw [hi]; rfl
  · rw [hi]; rfl
  · rw [hi]; rfl
  · rw [hi]; rfl
  · have hne : off ≠ 0x2 := by
      rintro rfl
      exact absurd hoff (by decide)
    rw [effect_raz hi, registerValue_raz hoff, if_neg hne]
    rfl

/-- A write of a read-only or reserved offset leaves only the missing response (41_host.md R95). -/
theorem effect_decodeWrite_ignored {off : Offset} (hrev : off ≠ 0x4) (hinit : off ≠ 0x5) (wdata : Word)
    (s : State) :
    effect (decodeWrite off wdata) s = quiet s := by
  unfold decodeWrite
  split
  case h_1 hoff => exact absurd (BitVec.eq_of_toNat_eq hoff) hrev
  case h_2 hoff => exact absurd (BitVec.eq_of_toNat_eq hoff) hinit
  all_goals rfl

theorem sext32_toInt {w : Nat} (hw : w ≤ 32) (p : BitVec w) : (sext32 p).toInt = sval p :=
  BitVec.toInt_signExtend_of_le hw

theorem countValue_toInt (s : State) : (countValue s).toInt = s.cntVal := sext32_toInt s.cfg.cntW_le s.cnt

theorem oldCountValue_toInt (s : State) : (oldCountValue s).toInt = s.snapVal := sext32_toInt s.cfg.cntW_le s.snap

theorem statusBits_toNat (cfgErr armed rev : Bool) :
    (statusBits cfgErr armed rev).toNat = 4 * cfgErr.toNat + 2 * armed.toNat + rev.toNat := by
  revert cfgErr armed rev; decide

/-- MOTION answers the sign of the delta as a 2-bit signed code (30_encoding.md R65). -/
theorem motionValue_code (s : State) :
    (motionValue s).toNat < 4 ∧ ((motionValue s).setWidth 2).toInt = (motionDelta s.cnt s.snap).sign := by
  obtain ⟨hd, hc⟩ | ⟨hd, hc⟩ | ⟨hd, hc⟩ := classify_cases (motionDelta s.cnt s.snap)
  · rw [motionValue, hc, Int.sign_eq_one_of_pos hd]
    decide
  · rw [motionValue, hc, Int.sign_eq_neg_one_of_neg hd]
    decide
  · rw [motionValue, hc, hd]
    decide

/-- Settles O48: the decoded read of each offset answers its register's value, and the decoded write of each offset is
REVERSE, INIT or ignored. -/
theorem registerMapAnswersByOffset : Obligations.RegisterMapAnswersByOffset := by
  constructor
  · intro s off wdata
    refine ⟨decodeRead off, registerValue off s, decode_hostWord_read off wdata, ?_, ?_, ?_, ?_, ?_,
      fun hoff => registerValue_raz hoff s⟩
    · rw [exec_eq_effect, effect_decodeRead]
    · rintro rfl
      exact countValue_toInt s
    · rintro rfl
      exact oldCountValue_toInt s
    · rintro rfl
      exact motionValue_code s
    · rintro rfl
      exact statusBits_toNat s.cfgErr s.armed s.rev
  · intro s off wdata
    refine ⟨decodeWrite off wdata, decode_hostWord_write off wdata, ?_⟩
    rw [exec_eq_effect]
    split
    case isTrue hrev => subst hrev; rfl
    case isFalse hrev =>
      split
      case isTrue hinit => subst hinit; rfl
      case isFalse hinit => rw [effect_decodeWrite_ignored hrev hinit]; rfl

/-! ## Repeated accesses -/

/-- A read other than MOTION's only answers. -/
theorem effect_read_frame {i : Instr} (hi : i.format = .hr) (hm : i ≠ .rdMotion) (s : State) :
    effect i s = { s with rdata := (effect i s).rdata } := by
  cases i with
  | rdMotion => exact absurd rfl hm
  | rdCount | rdOldCount | rdStatus | rdRazCommand _ | rdRazReservedLow _ | rdRazReservedHigh _ => rfl
  | _ => cases hi

/-- A read other than MOTION's answers the same again. -/
theorem effect_read_twice {i : Instr} (hi : i.format = .hr) (hm : i ≠ .rdMotion) (s : State) :
    effect i (effect i s) = effect i s := by
  cases i with
  | rdMotion => exact absurd rfl hm
  | rdCount | rdOldCount | rdStatus | rdRazCommand _ | rdRazReservedLow _ | rdRazReservedHigh _ => rfl
  | _ => cases hi

/-- The snapshot stands at the counter: the last MOTION read saw all movement. -/
def State.Settled (s : State) : Prop := s.snapVal = s.cntVal

theorem settled_rdMotion (s : State) : (effect .rdMotion s).Settled := rfl

/-- No host transaction moves the counter away from the snapshot. -/
theorem settled_effect (i : Instr) (s : State) (hi : i.format ≠ .ev) (h : s.Settled) : (effect i s).Settled := by
  by_cases hm : i = .rdMotion
  · rw [hm]
    exact settled_rdMotion s
  · exact (effect_snapVal hm s).trans (h.trans (effect_cntVal hi s).symm)

theorem snap_eq_cnt_of_settled {s : State} (h : s.Settled) : s.snap = s.cnt := BitVec.eq_of_toInt_eq h

theorem motionDelta_self {w : Nat} (c : BitVec w) : motionDelta c c = 0 := by
  rw [motionDelta, Int.sub_self, sval_wrap, Int.zero_bmod]

/-- A MOTION read of a settled state answers stationary and moves nothing. -/
theorem effect_rdMotion_of_settled {s : State} (h : s.Settled) : effect .rdMotion s = { s with rdata := some 0 } := by
  have hsnap := snap_eq_cnt_of_settled h
  have hvalue : motionValue s = 0 := by
    rw [motionValue, hsnap, motionDelta_self]
    rfl
  simp only [effect, hvalue, respond, takeSnapshot, ← hsnap]

theorem toggleRev_twice (s : State) : toggleRev (toggleRev s) = s := by
  simp [toggleRev, reversedFlag]

/-- Settles O49, one clause per kind of access. -/
theorem repeatedAccessesBehaveAsTheRegisterSays : Obligations.RepeatedAccessesBehaveAsTheRegisterSays := by
  refine ⟨?_, ?_, ?_, ?_, ?_, ?_⟩
  · intro i s t u hi hm ht hu
    obtain rfl := exec_next_iff.mp ht
    obtain rfl := exec_next_iff.mp hu
    exact ⟨effect_read_twice hi hm s, effect_read_frame hi hm s⟩
  · intro s
    rw [execAll_cons, execAll_cons, effect_rdMotion_of_settled (settled_rdMotion s)]
    rfl
  · intro is s t hhost hrun
    rw [execAll_cons] at hrun
    have hsettled := execAll_keeps State.Settled _ settled_effect is _ t hhost (settled_rdMotion s) hrun
    rw [exec_eq_effect, effect_rdMotion_of_settled hsettled]
  · intro s w w'
    have htwice : effect (.wrReverse w') (effect (.wrReverse w) s) = quiet (toggleRev (toggleRev s)) := rfl
    rw [execAll_cons, execAll_cons, htwice, toggleRev_twice]
    rfl
  · intro is s t w harmed hrun
    have ht : t.armed = true :=
      execAll_keeps (·.armed = true) (fun _ => True) (fun i u _ h => effect_armed h i) is s t (fun _ _ => trivial)
        harmed hrun
    rw [exec_eq_effect, effect, initOperation_armed ht]
    rfl
  · intro i s hi hrev hinit
    cases i with
    | wrReverse w => exact absurd rfl (hrev w)
    | wrInit w => exact absurd rfl (hinit w)
    | wrIgnoredReadOnly _ _ | wrIgnoredReservedLow _ _ | wrIgnoredReservedHigh _ _ => rfl
    | _ => cases hi

end Sys2Proof.Machine
end

section
/-! The encoding statements (30_encoding.md): which words are transactions and which are refused, decode and encode as
each other's inverse, the opcode table's rows, what KIND alone tells, and the storage and motion codes. -/

namespace Sys2Proof.Machine

/-! ## The words of transactions and the words refused -/

/-- The 35 well-formed words of 30_encoding.md R61, by number. -/
abbrev IsTransactionWord (tw : TW) : Prop :=
  tw.toNat < 0x10 ∨ (0x40 ≤ tw.toNat ∧ tw.toNat < 0x50) ∨ (0x81 ≤ tw.toNat ∧ tw.toNat ≤ 0x83)

/-- A well-formed word is one that a strobe forms (20_memory.md R35). -/
theorem strobed_of_isTransactionWord {tw : TW} (h : IsTransactionWord tw) :
    (∃ off, tw = hostWord false off) ∨ (∃ off, tw = hostWord true off) ∨
      ∃ evA evB, (evA || evB) = true ∧ tw = edgeWord evA evB := by
  revert tw; decide

/-- The classes of 30_encoding.md R59, in the order in which the decoder tests them. -/
theorem rejected_of_not_isTransactionWord {tw : TW} (h : ¬ IsTransactionWord tw) :
    zOf tw ≠ 0 ∨ (zOf tw = 0 ∧ kindOf tw = .reserved) ∨
      (zOf tw = 0 ∧ kindOf tw = .edgeEvent ∧
        (decodeEdge (selOf tw) = .error .edgeSelHigh ∨ decodeEdge (selOf tw) = .error .edgeNone)) := by
  revert tw; decide

theorem decode_zNonzero {tw : TW} (hz : zOf tw ≠ 0) (wdata : Word) : decode tw wdata = .error .zNonzero :=
  if_pos hz

theorem decode_kindReserved {tw : TW} (hz : zOf tw = 0) (hk : kindOf tw = .reserved) (wdata : Word) :
    decode tw wdata = .error .kindReserved := by
  simp [decode, hz, hk]

theorem decode_edgeEvent {tw : TW} (hz : zOf tw = 0) (hk : kindOf tw = .edgeEvent) (wdata : Word) :
    decode tw wdata = decodeEdge (selOf tw) := by
  simp [decode, hz, hk]

theorem exists_reject_of_not_isTransactionWord {tw : TW} (h : ¬ IsTransactionWord tw) (wdata : Word) :
    ∃ why, decode tw wdata = .error why := by
  obtain hz | ⟨hz, hk⟩ | ⟨hz, hk, hsel | hsel⟩ := rejected_of_not_isTransactionWord h
  · exact ⟨_, decode_zNonzero hz wdata⟩
  · exact ⟨_, decode_kindReserved hz hk wdata⟩
  · exact ⟨_, (decode_edgeEvent hz hk wdata).trans hsel⟩
  · exact ⟨_, (decode_edgeEvent hz hk wdata).trans hsel⟩

/-- A word is refused exactly when it is none of the 35. -/
theorem exists_reject_iff (tw : TW) (wdata : Word) :
    (∃ why, decode tw wdata = .error why) ↔ ¬ IsTransactionWord tw := by
  constructor
  · rintro ⟨why, hwhy⟩ hword
    obtain ⟨i, hi⟩ := exists_decode_of_wellFormed wdata hword
    rw [hi] at hwhy
    cases hwhy
  · intro hword
    exact exists_reject_of_not_isTransactionWord hword wdata

theorem isTransactionWord_of_decode {tw : TW} {wdata : Word} {i : Instr} (h : decode tw wdata = .ok i) :
    IsTransactionWord tw := by
  by_contra hword
  obtain ⟨why, hwhy⟩ := exists_reject_of_not_isTransactionWord hword wdata
  rw [h] at hwhy
  cases hwhy

theorem isOk_decode (tw : TW) (wdata : Word) : (decode tw wdata).isOk = decide (IsTransactionWord tw) := by
  by_cases hword : IsTransactionWord tw
  · obtain ⟨i, hi⟩ := exists_decode_of_wellFormed wdata hword
    rw [hi, decide_eq_true hword]
    rfl
  · obtain ⟨why, hwhy⟩ := exists_reject_of_not_isTransactionWord hword wdata
    rw [hwhy, decide_eq_false hword]
    rfl

/-- Inversion of `decode`: a word that decodes is a strobe's word, and the transaction is that strobe's. -/
theorem decode_ok_cases {tw : TW} {wdata : Word} {i : Instr} (h : decode tw wdata = .ok i) :
    (∃ off, tw = hostWord false off ∧ i = decodeRead off) ∨
    (∃ off, tw = hostWord true off ∧ i = decodeWrite off wdata) ∨
    ∃ evA evB, (evA || evB) = true ∧ tw = edgeWord evA evB ∧ i = strobedEdge evA evB := by
  obtain ⟨off, rfl⟩ | ⟨off, rfl⟩ | ⟨evA, evB, hev, rfl⟩ :=
    strobed_of_isTransactionWord (isTransactionWord_of_decode h)
  · rw [decode_hostWord_read] at h
    cases h
    exact .inl ⟨off, rfl, rfl⟩
  · rw [decode_hostWord_write] at h
    cases h
    exact .inr (.inl ⟨off, rfl, rfl⟩)
  · rw [decode_edgeWord hev] at h
    cases h
    exact .inr (.inr ⟨evA, evB, hev, rfl, rfl⟩)

/-! ## The transaction of each range of offsets -/

section OffsetRanges

variable {off : Offset}

theorem decodeRead_command (h : 4 ≤ off.toNat ∧ off.toNat ≤ 5) : decodeRead off = .rdRazCommand off := by
  revert off; decide

theorem decodeRead_reservedLow (h : 6 ≤ off.toNat ∧ off.toNat ≤ 7) : decodeRead off = .rdRazReservedLow off := by
  revert off; decide

theorem decodeRead_reservedHigh (h : 8 ≤ off.toNat) : decodeRead off = .rdRazReservedHigh off := by
  revert off; decide

theorem decodeWrite_readOnly (h : off.toNat ≤ 3) (wdata : Word) :
    decodeWrite off wdata = .wrIgnoredReadOnly off wdata := by
  have hoff : off.toNat = 0 ∨ off.toNat = 1 ∨ off.toNat = 2 ∨ off.toNat = 3 := by omega
  obtain hoff | hoff | hoff | hoff := hoff <;> simp [decodeWrite, hoff]

theorem decodeWrite_reservedLow (h : 6 ≤ off.toNat ∧ off.toNat ≤ 7) (wdata : Word) :
    decodeWrite off wdata = .wrIgnoredReservedLow off wdata := by
  have hoff : off.toNat = 6 ∨ off.toNat = 7 := by omega
  obtain hoff | hoff := hoff <;> simp [decodeWrite, hoff]

theorem decodeWrite_reservedHigh (h : 8 ≤ off.toNat) (wdata : Word) :
    decodeWrite off wdata = .wrIgnoredReservedHigh off wdata := by
  unfold decodeWrite
  split
  case h_9 => rfl
  all_goals omega

end OffsetRanges

/-- The ranges in which the writes are decoded. -/
theorem offset_cases (off : Offset) :
    off = 4 ∨ off = 5 ∨ off.toNat ≤ 3 ∨ (6 ≤ off.toNat ∧ off.toNat ≤ 7) ∨ 8 ≤ off.toNat := by
  revert off; decide

/-! ## What the decoder reads is well formed, and encodes as the strobe's word -/

/-- In the range of its row, an offset's free bits make the row's word the strobe's (30_encoding.md R61, 20_memory.md
R35). -/
theorem rowWord_eq_hostWord (off : Offset) :
    (off.toNat ≤ 3 → rowWord 0x40 0xFC off = hostWord true off) ∧
    (6 ≤ off.toNat ∧ off.toNat ≤ 7 → rowWord 0x46 0xFE off = hostWord true off) ∧
    (8 ≤ off.toNat → rowWord 0x48 0xF8 off = hostWord true off) := by
  revert off; decide

theorem encode_decodeRead (off : Offset) : encode (decodeRead off) = (hostWord false off, none) := by
  revert off; decide

theorem encode_decodeWrite (off : Offset) (wdata : Word) :
    encode (decodeWrite off wdata) = (hostWord true off, some wdata) := by
  obtain ⟨hreadOnly, hlow, hhigh⟩ := rowWord_eq_hostWord off
  obtain rfl | rfl | h | h | h := offset_cases off
  · rfl
  · rfl
  · rw [decodeWrite_readOnly h, encode, hreadOnly h]
  · rw [decodeWrite_reservedLow h, encode, hlow h]
  · rw [decodeWrite_reservedHigh h, encode, hhigh h]

theorem encode_strobedEdge {evA evB : Bool} (h : (evA || evB) = true) :
    encode (strobedEdge evA evB) = (edgeWord evA evB, none) := by
  revert evA evB; decide

theorem wf_decodeRead (off : Offset) : (decodeRead off).wf = true := by
  revert off; decide

theorem wf_decodeWrite (off : Offset) (wdata : Word) : (decodeWrite off wdata).wf = true := by
  obtain rfl | rfl | h | h | h := offset_cases off
  · rfl
  · rfl
  · rw [decodeWrite_readOnly h]; exact decide_eq_true h
  · rw [decodeWrite_reservedLow h]; exact decide_eq_true h
  · rw [decodeWrite_reservedHigh h]; exact decide_eq_true h

theorem wf_strobedEdge (evA evB : Bool) : (strobedEdge evA evB).wf = true := by
  revert evA evB; decide

theorem format_decodeRead (off : Offset) : (decodeRead off).format = .hr := by
  revert off; decide

theorem format_decodeWrite (off : Offset) (wdata : Word) : (decodeWrite off wdata).format = .hw := by
  unfold decodeWrite
  split <;> rfl

theorem format_strobedEdge (evA evB : Bool) : (strobedEdge evA evB).format = .ev := by
  revert evA evB; decide

/-- A well-formed transaction is what the decoder reads from some strobe (30_encoding.md R61). -/
theorem strobed_of_wf {i : Instr} (h : i.wf = true) :
    (∃ off, i = decodeRead off) ∨ (∃ off wdata, i = decodeWrite off wdata) ∨
      ∃ evA evB, (evA || evB) = true ∧ i = strobedEdge evA evB := by
  cases i with
  | rdCount => exact .inl ⟨0, rfl⟩
  | rdOldCount => exact .inl ⟨1, rfl⟩
  | rdMotion => exact .inl ⟨2, rfl⟩
  | rdStatus => exact .inl ⟨3, rfl⟩
  | rdRazCommand off => exact .inl ⟨off, (decodeRead_command (of_decide_eq_true h)).symm⟩
  | rdRazReservedLow off => exact .inl ⟨off, (decodeRead_reservedLow (of_decide_eq_true h)).symm⟩
  | rdRazReservedHigh off => exact .inl ⟨off, (decodeRead_reservedHigh (of_decide_eq_true h)).symm⟩
  | wrIgnoredReadOnly off wdata =>
    exact .inr (.inl ⟨off, wdata, (decodeWrite_readOnly (of_decide_eq_true h) wdata).symm⟩)
  | wrReverse wdata => exact .inr (.inl ⟨4, wdata, rfl⟩)
  | wrInit wdata => exact .inr (.inl ⟨5, wdata, rfl⟩)
  | wrIgnoredReservedLow off wdata =>
    exact .inr (.inl ⟨off, wdata, (decodeWrite_reservedLow (of_decide_eq_true h) wdata).symm⟩)
  | wrIgnoredReservedHigh off wdata =>
    exact .inr (.inl ⟨off, wdata, (decodeWrite_reservedHigh (of_decide_eq_true h) wdata).symm⟩)
  | edgeA => exact .inr (.inr ⟨true, false, rfl, rfl⟩)
  | edgeB => exact .inr (.inr ⟨false, true, rfl, rfl⟩)
  | edgeAB => exact .inr (.inr ⟨true, true, rfl, rfl⟩)

/-- Settles O1: a well-formed transaction is a strobe's, and encodes as the word that strobe forms. -/
theorem decodeOfEncodeReturnsTheInstruction : Obligations.DecodeOfEncodeReturnsTheInstruction := by
  intro i presented h
  obtain ⟨off, rfl⟩ | ⟨off, wdata, rfl⟩ | ⟨evA, evB, hev, rfl⟩ := strobed_of_wf h
  · rw [encode_decodeRead]
    exact decode_hostWord_read off presented
  · rw [encode_decodeWrite]
    exact decode_hostWord_write off wdata
  · rw [encode_strobedEdge hev]
    exact decode_edgeWord hev presented

/-- Settles O2, by the inversion of `decode`. -/
theorem decodedWordsEncodeBack : Obligations.DecodedWordsEncodeBack := by
  intro tw wdata i h
  obtain ⟨off, rfl, rfl⟩ | ⟨off, rfl, rfl⟩ | ⟨evA, evB, hev, rfl, rfl⟩ := decode_ok_cases h
  · rw [encode_decodeRead, format_decodeRead]
    exact ⟨wf_decodeRead off, rfl, rfl⟩
  · rw [encode_decodeWrite, format_decodeWrite]
    exact ⟨wf_decodeWrite off wdata, rfl, rfl⟩
  · rw [encode_strobedEdge hev, format_strobedEdge]
    exact ⟨wf_strobedEdge evA evB, rfl, rfl⟩

/-! ## The opcode map by number -/

theorem zOf_eq_zero_iff (tw : TW) : zOf tw = 0 ↔ tw.toNat / 16 % 4 = 0 := by
  rw [← (fields_of_word tw).1, ← BitVec.toNat_inj]
  rfl

theorem decode_of_toNat_eq {tw w : TW} {wdata : Word} {r : Except Reject Instr} (h : tw.toNat = w.toNat)
    (hw : decode w wdata = r) : decode tw wdata = r := by
  rwa [BitVec.eq_of_toNat_eq h]

/-- A word below 0x10 is a read of the offset in its low bits. -/
theorem decode_of_le_0x0F {tw : TW} (h : tw.toNat ≤ 0x0F) (wdata : Word) :
    decode tw wdata = .ok (decodeRead (BitVec.ofNat 4 tw.toNat)) := by
  have hword : tw = hostWord false (BitVec.ofNat 4 tw.toNat) := by revert tw; decide
  rw [← decode_hostWord_read _ wdata, ← hword]

/-- A word from 0x40 to 0x4F is a write of the offset in its low bits. -/
theorem decode_of_0x40_to_0x4F {tw : TW} (h : 0x40 ≤ tw.toNat ∧ tw.toNat ≤ 0x4F) (wdata : Word) :
    decode tw wdata = .ok (decodeWrite (BitVec.ofNat 4 tw.toNat) wdata) := by
  have hword : tw = hostWord true (BitVec.ofNat 4 tw.toNat) := by revert tw; decide
  rw [← decode_hostWord_write _ wdata, ← hword]

/-- An edge word with a bit of SEL[3:2] set. -/
theorem decode_of_0x84_to_0x8F {tw : TW} (h : 0x84 ≤ tw.toNat ∧ tw.toNat ≤ 0x8F) (wdata : Word) :
    decode tw wdata = .error .edgeSelHigh := by
  have hfields : zOf tw = 0 ∧ kindOf tw = .edgeEvent ∧ decodeEdge (selOf tw) = .error .edgeSelHigh := by
    revert tw; decide
  obtain ⟨hz, hk, hsel⟩ := hfields
  rw [decode_edgeEvent hz hk, hsel]

/-- A word with both bits of KIND set, Z being 0. -/
theorem decode_of_ge_0xC0 {tw : TW} (hz : tw.toNat / 16 % 4 = 0) (h : 0xC0 ≤ tw.toNat) (wdata : Word) :
    decode tw wdata = .error .kindReserved := by
  have hk : kindOf tw = .reserved := by
    rw [kindOf_of_word, if_neg (by omega), if_neg (by omega), if_neg (by omega)]
  exact decode_kindReserved ((zOf_eq_zero_iff tw).mpr hz) hk wdata

/-- The count of 30_encoding.md R61. -/
theorem count_transactionWords :
    ((List.range 256).filter fun n => decide (IsTransactionWord (BitVec.ofNat 8 n))).length = 35 := by
  decide

/-- One branch of the map at a time. -/
theorem eq_ite_of_cases {α : Type} {p : Prop} [Decidable p] {x a b : α} (hpos : p → x = a) (hneg : ¬ p → x = b) :
    x = if p then a else b :=
  (ite_eq_iff'.mpr ⟨fun h => (hpos h).symm, fun h => (hneg h).symm⟩).symm

/-- Settles O3, branch by branch of the map; the count is that of the words by number, as refusal does not depend on
the operand. -/
theorem decoderFollowsTheOpcodeMap : Obligations.DecoderFollowsTheOpcodeMap := by
  constructor
  · intro tw wdata
    have hsel : (BitVec.ofNat 4 tw.toNat).toNat = tw.toNat % 16 := BitVec.toNat_ofNat _ _
    refine eq_ite_of_cases (fun hz => ?_) fun hz => ?_
    · exact decode_zNonzero (mt (zOf_eq_zero_iff tw).mp hz) wdata
    refine eq_ite_of_cases (fun h => decode_of_toNat_eq (w := 0x00) h rfl) fun _ => ?_
    refine eq_ite_of_cases (fun h => decode_of_toNat_eq (w := 0x01) h rfl) fun _ => ?_
    refine eq_ite_of_cases (fun h => decode_of_toNat_eq (w := 0x02) h rfl) fun _ => ?_
    refine eq_ite_of_cases (fun h => decode_of_toNat_eq (w := 0x03) h rfl) fun _ => ?_
    refine eq_ite_of_cases (fun _ => ?_) fun _ => ?_
    · rw [decode_of_le_0x0F (by omega), decodeRead_command (by omega)]
    refine eq_ite_of_cases (fun _ => ?_) fun _ => ?_
    · rw [decode_of_le_0x0F (by omega), decodeRead_reservedLow (by omega)]
    refine eq_ite_of_cases (fun hF => ?_) fun _ => ?_
    · rw [decode_of_le_0x0F hF, decodeRead_reservedHigh (by omega)]
    refine eq_ite_of_cases (fun _ => ?_) fun _ => ?_
    · rw [decode_of_0x40_to_0x4F (by omega), decodeWrite_readOnly (by omega)]
    refine eq_ite_of_cases (fun h => decode_of_toNat_eq (w := 0x44) h rfl) fun _ => ?_
    refine eq_ite_of_cases (fun h => decode_of_toNat_eq (w := 0x45) h rfl) fun _ => ?_
    refine eq_ite_of_cases (fun _ => ?_) fun _ => ?_
    · rw [decode_of_0x40_to_0x4F (by omega), decodeWrite_reservedLow (by omega)]
    refine eq_ite_of_cases (fun _ => ?_) fun _ => ?_
    · rw [decode_of_0x40_to_0x4F (by omega), decodeWrite_reservedHigh (by omega)]
    refine eq_ite_of_cases (fun h => decode_of_toNat_eq (w := 0x80) h rfl) fun _ => ?_
    refine eq_ite_of_cases (fun h => decode_of_toNat_eq (w := 0x81) h rfl) fun _ => ?_
    refine eq_ite_of_cases (fun h => decode_of_toNat_eq (w := 0x82) h rfl) fun _ => ?_
    refine eq_ite_of_cases (fun h => decode_of_toNat_eq (w := 0x83) h rfl) fun _ => ?_
    refine eq_ite_of_cases (fun _ => ?_) fun _ => ?_
    · exact decode_of_0x84_to_0x8F (by omega) wdata
    · exact decode_of_ge_0xC0 (not_not.mp hz) (by omega) wdata
  · intro wdata
    simp only [isOk_decode]
    exact count_transactionWords

/-! ## The rows of the opcode table -/

/-- Two rows that share a word have no fixed bit in which they differ. -/
theorem rows_agree_of_hits {r q : OpcodeRow} {tw : TW} (hr : r.hits tw = true) (hq : q.hits tw = true) :
    r.mask &&& q.mask &&& (r.value ^^^ q.value) = 0 := by
  rw [← eq_of_beq hr, ← eq_of_beq hq]
  ext k hk
  simp only [BitVec.getElem_and, BitVec.getElem_xor]
  cases r.mask[k] <;> cases q.mask[k] <;> simp

/-- No word lies in an earlier and a later row. -/
theorem not_hits_earlier_and_later {j k : Nat} {r q : OpcodeRow} {tw : TW} (hjk : j < k)
    (hj : opcodeRows[j]? = some r) (hk : opcodeRows[k]? = some q) (hr : r.hits tw = true) : q.hits tw = false := by
  obtain ⟨hjlen, rfl⟩ := List.getElem?_eq_some_iff.mp hj
  obtain ⟨hklen, rfl⟩ := List.getElem?_eq_some_iff.mp hk
  have hdisjoint := List.pairwise_iff_getElem.mp opcodeRows_disjoint j k hjlen hklen hjk
  by_contra hq
  exact hdisjoint (rows_agree_of_hits hr (eq_true_of_ne_false hq))

theorem rowIndex_unique {j k : Nat} {r q : OpcodeRow} {tw : TW} (hj : opcodeRows[j]? = some r)
    (hk : opcodeRows[k]? = some q) (hr : r.hits tw = true) (hq : q.hits tw = true) : j = k := by
  obtain hlt | heq | hgt := Nat.lt_trichotomy j k
  · rw [not_hits_earlier_and_later hlt hj hk hr] at hq
    cases hq
  · exact heq
  · rw [not_hits_earlier_and_later hgt hk hj hq] at hr
    cases hr

/-- Every transaction's word lies in its row. -/
theorem rowMatch (i : Instr) : Laws.RowMatch.Statement i :=
  match i with
  | .rdCount => Laws.RowMatch.rdCount
  | .rdOldCount => Laws.RowMatch.rdOldCount
  | .rdMotion => Laws.RowMatch.rdMotion
  | .rdStatus => Laws.RowMatch.rdStatus
  | .rdRazCommand off => Laws.RowMatch.rdRazCommand off
  | .rdRazReservedLow off => Laws.RowMatch.rdRazReservedLow off
  | .rdRazReservedHigh off => Laws.RowMatch.rdRazReservedHigh off
  | .wrIgnoredReadOnly off wdata => Laws.RowMatch.wrIgnoredReadOnly off wdata
  | .wrReverse wdata => Laws.RowMatch.wrReverse wdata
  | .wrInit wdata => Laws.RowMatch.wrInit wdata
  | .wrIgnoredReservedLow off wdata => Laws.RowMatch.wrIgnoredReservedLow off wdata
  | .wrIgnoredReservedHigh off wdata => Laws.RowMatch.wrIgnoredReservedHigh off wdata
  | .edgeA => Laws.RowMatch.edgeA
  | .edgeB => Laws.RowMatch.edgeB
  | .edgeAB => Laws.RowMatch.edgeAB

/-- The first row a word lies in is the row of the transaction it encodes. -/
theorem findIdx_row_of_encode (i : Instr) :
    opcodeRows.findIdx? (fun r => r.hits (encode i).1) = some i.rowIndex := by
  obtain ⟨⟨r, hrow, hhits⟩, -⟩ := rowMatch i
  obtain ⟨hlen, rfl⟩ := List.getElem?_eq_some_iff.mp hrow
  refine List.findIdx?_eq_some_iff_getElem.mpr ⟨hlen, hhits, fun j hj hjhits => ?_⟩
  have hother := not_hits_earlier_and_later hj (List.getElem?_eq_getElem _) hrow hjhits
  rw [hhits] at hother
  cases hother

theorem findIdx_row_of_not_isTransactionWord {tw : TW} (h : ¬ IsTransactionWord tw) :
    opcodeRows.findIdx? (fun r => r.hits tw) = none := by
  revert tw; decide

/-- Settles O4: a word that decodes is its transaction's encoding, and one that is refused lies in no row. -/
theorem opcodeTableRowsDecideDecoding : Obligations.OpcodeTableRowsDecideDecoding := by
  constructor
  · intro tw j k r q hj hk hr hq
    exact rowIndex_unique hj hk hr hq
  · intro tw wdata
    rcases hd : decode tw wdata with why | i
    · exact findIdx_row_of_not_isTransactionWord ((exists_reject_iff tw wdata).mp ⟨why, hd⟩)
    · obtain ⟨-, rfl, -⟩ := decodedWordsEncodeBack tw wdata i hd
      exact findIdx_row_of_encode i

/-! ## Refused requests -/

theorem step_eq_refused_of_reject {s : State} {d : Delivery} {rest : List Delivery} {tw : TW} {wdata : Word}
    {why : Reject} (hp : s.pending = d :: rest) (hf : formTransaction s.cfg d.req = .ok (.word tw wdata))
    (hd : decode tw wdata = .error why) : step s = .refused (.illFormedWord why) := by
  simp [step, fetch, hp, hf, hd]

/-- Settles O5: the classes of R59 are together the words that are none of the 35 of R61. -/
theorem illFormedWordsAreRefused : Obligations.IllFormedWordsAreRefused := by
  refine ⟨?_, ?_, exists_decode_hostWord, ?_⟩
  · intro tw wdata
    rw [exists_reject_iff]
    omega
  · intro s la lb tw wdata rest why hp hd
    exact step_eq_refused_of_reject hp rfl hd
  · intro evA evB wdata hev
    exact ⟨_, decode_edgeWord hev wdata⟩

/-- A bus access that is not admissible reaches no register (20_memory.md R50; log 6). -/
theorem busOffset_of_inadmissible {base addr nbytes : Nat}
    (h : ¬ (nbytes = 4 ∧ base ≤ addr ∧ addr < base + 64 ∧ (addr - base) % 4 = 0)) :
    ∃ r, busOffset base addr nbytes = .error r := by
  by_cases hpart : nbytes ≠ 4 ∨ addr % 4 ≠ base % 4
  · exact ⟨_, busOffset_notWhole hpart⟩
  · obtain ⟨rfl, halign⟩ : nbytes = 4 ∧ addr % 4 = base % 4 := by omega
    exact ⟨_, busOffset_outside halign (by omega)⟩

/-- The converse of `step_of_admissible`: any other delivery stops the machine. -/
theorem step_of_inadmissible {s : State} {d : Delivery} {rest : List Delivery} (hp : s.pending = d :: rest)
    (h : d.req.admissible s.cfg = false) : ∃ r, step s = .refused r := by
  obtain ⟨la, lb, req⟩ := d
  cases req with
  | rst => cases h
  | host we off wdata => cases h
  | edges evA evB =>
    obtain ⟨rfl, rfl⟩ : evA = false ∧ evB = false := Bool.or_eq_false_iff.mp h
    exact ⟨_, step_eq_refused_of_reject hp rfl (why := .edgeNone) rfl⟩
  | word tw wdata =>
    obtain ⟨why, hd⟩ := exists_reject_of_not_isTransactionWord (of_decide_eq_false h) wdata
    exact ⟨_, step_eq_refused_of_reject hp rfl hd⟩
  | bus we addr nbytes wdata =>
    obtain ⟨r, hr⟩ := busOffset_of_inadmissible (of_decide_eq_false h)
    exact ⟨r, step_eq_refused hp (formTransaction_bus_error hr we wdata)⟩

/-- Settles O13: an admissible delivery completes, any other is refused, and no step does both. -/
theorem stepCompletesExactlyOnTransactions : Obligations.StepCompletesExactlyOnTransactions := by
  intro s d rest hp
  cases hadm : d.req.admissible s.cfg with
  | false =>
    obtain ⟨r, hr⟩ := step_of_inadmissible hp hadm
    simp [hr]
  | true => simp [step_of_admissible hp hadm]

/-! ## What KIND tells -/

/-- A host read answers (41_host.md R86). -/
theorem effect_rdata_of_read {i : Instr} (hi : i.format = .hr) (s : State) : ∃ v, (effect i s).rdata = some v := by
  cases i with
  | rdCount | rdOldCount | rdMotion | rdStatus | rdRazCommand _ | rdRazReservedLow _ | rdRazReservedHigh _ =>
    exact ⟨_, rfl⟩
  | _ => cases hi

/-- No other transaction answers (00_scope.md R13). -/
theorem effect_rdata_of_not_read {i : Instr} (hi : i.format ≠ .hr) (s : State) : (effect i s).rdata = none := by
  cases i with
  | rdCount | rdOldCount | rdMotion | rdStatus | rdRazCommand _ | rdRazReservedLow _ | rdRazReservedHigh _ =>
    exact absurd rfl hi
  | _ => rfl

theorem hostWord_kind (we : Bool) (off : Offset) : (hostWord we off).toNat / 64 = we.toNat := by
  revert we off; decide

theorem edgeWord_kind (evA evB : Bool) : (edgeWord evA evB).toNat / 64 = 2 := by
  revert evA evB; decide

/-- Settles O7, by the inversion of `decode`: one case for each KIND. -/
theorem kindTellsFormatOperandAndResponse : Obligations.KindTellsFormatOperandAndResponse := by
  intro tw wdata i s h
  have hexec := exec_eq_effect i s
  obtain ⟨off, rfl, rfl⟩ | ⟨off, rfl, rfl⟩ | ⟨evA, evB, hev, rfl, rfl⟩ := decode_ok_cases h
  · have hf := format_decodeRead off
    obtain ⟨v, hv⟩ := effect_rdata_of_read hf s
    exact .inl ⟨hostWord_kind false off, hf, by rw [encode_decodeRead], _, v, hexec, hv⟩
  · have hf := format_decodeWrite off wdata
    have hquiet := effect_rdata_of_not_read (hf.trans_ne nofun) s
    exact .inr (.inl ⟨hostWord_kind true off, hf, by rw [encode_decodeWrite], _, hexec, hquiet⟩)
  · have hf := format_strobedEdge evA evB
    have hquiet := effect_rdata_of_not_read (hf.trans_ne nofun) s
    exact .inr (.inr ⟨edgeWord_kind evA evB, hf, by rw [encode_strobedEdge hev], _, hexec, hquiet⟩)

/-- No write looks at its operand (41_host.md R86). -/
theorem effect_decodeWrite_congr (off : Offset) (wdata wdata' : Word) (s : State) :
    effect (decodeWrite off wdata) s = effect (decodeWrite off wdata') s := by
  unfold decodeWrite
  split <;> rfl

/-- Settles O53: the operand reaches a decoded transaction only in a write, which does not look at it. -/
theorem writeDataIsIgnored : Obligations.WriteDataIsIgnored := by
  intro tw wdata wdata' i j s hi hj
  rw [exec_eq_effect, exec_eq_effect]
  obtain ⟨off, rfl, rfl⟩ | ⟨off, rfl, rfl⟩ | ⟨evA, evB, hev, rfl, rfl⟩ := decode_ok_cases hi
  · rw [decode_hostWord_read] at hj
    cases hj
    rfl
  · rw [decode_hostWord_write] at hj
    cases hj
    rw [effect_decodeWrite_congr]
  · rw [decode_edgeWord hev] at hj
    cases hj
    rfl

/-! ## Words, listings and codes written out -/

/-- Settles O6, by running the decoder on each word. -/
theorem handWrittenWordsDecode : Obligations.HandWrittenWordsDecode :=
  ⟨rfl, rfl, rfl, rfl, rfl, rfl, rfl, rfl, rfl, rfl, rfl, rfl⟩

/-- Settles O8: no expansion is a bus access, so the parameters do not enter. -/
theorem pseudoInstructionsExpandToTheirWords : Obligations.PseudoInstructionsExpandToTheirWords :=
  ⟨rfl, fun _ => rfl⟩

theorem pair_toNat (hi lo : Bool) : (pair hi lo).toNat = 2 * hi.toNat + lo.toNat := by
  revert hi lo; decide

theorem pair_bits (hi lo : Bool) : (pair hi lo).getLsbD 0 = lo ∧ (pair hi lo).getLsbD 1 = hi := by
  revert hi lo; decide

/-- Settles O20: the orientation only chooses the order of the pair. -/
theorem readingCompositionPlacesTheChannels : Obligations.ReadingCompositionPlacesTheChannels := by
  intro a b
  have hforward : compose a b false = pair a b := rfl
  have hreversed : compose a b true = pair b a := rfl
  obtain ⟨hlow, hhigh⟩ := pair_bits a b
  obtain ⟨hlow', hhigh'⟩ := pair_bits b a
  rw [hforward, hreversed]
  exact ⟨pair_toNat a b, pair_toNat b a, hlow'.trans hhigh.symm, hhigh'.trans hlow.symm⟩

/-- The values of 10_state.md R26. -/
theorem rom_range (i : BitVec 4) : rom i = -1 ∨ rom i = 0 ∨ rom i = 1 ∨ rom i = 2 := by
  revert i; decide

/-- Settles O23: a storage code is read back for each of the four values a ROM entry has. -/
theorem storageCodeYieldsTheRomValues : Obligations.StorageCodeYieldsTheRomValues := by
  refine ⟨rom_range, ?_, rfl, rfl, rfl, rfl⟩
  intro i
  obtain h | h | h | h := rom_range i <;> rw [h] <;> rfl

theorem motionOfCode_mcode (m : Motion) : motionOfCode (mcode m) = some m := by
  cases m <;> rfl

theorem motionOfCode_two : motionOfCode 0b10 = none := rfl

/-- Settles O55: the codes read back, so none is 0b10, which stands for no classification. -/
theorem motionCodesAndNames : Obligations.MotionCodesAndNames := by
  refine ⟨fun m => ⟨motionOfCode_mcode m, ?_⟩, motionOfCode_two, rfl, rfl, rfl, rfl, rfl, rfl⟩
  intro hm
  have hcode := motionOfCode_mcode m
  rw [hm, motionOfCode_two] at hcode
  cases hcode

end Sys2Proof.Machine
end

section
/-! The edge statements (40_edge.md): what each edge transaction does, and what any sequence of edges makes of the
counter. -/

namespace Sys2Proof.Machine

/-! ## The steps that count -/

theorem countStep_of_unit {k : Int} (hk : k = 1 ∨ k = -1) {w : Nat} (c : BitVec w) :
    countStep k c = wrap w (sval c + k) :=
  if_pos hk

theorem countStep_of_not_unit {k : Int} (hk : ¬ (k = 1 ∨ k = -1)) {w : Nat} (c : BitVec w) : countStep k c = c :=
  if_neg hk

/-- What a looked-up step adds to the counter: itself where it is +1 or -1, else nothing (40_edge.md R75). -/
def appliedStep (k : Int) : Int := if k = 1 ∨ k = -1 then k else 0

theorem countStep_eq_wrap (k : Int) {w : Nat} (c : BitVec w) : countStep k c = wrap w (sval c + appliedStep k) := by
  by_cases hk : k = 1 ∨ k = -1
  · rw [countStep_of_unit hk, appliedStep, if_pos hk]
  · rw [countStep_of_not_unit hk, appliedStep, if_neg hk, Int.add_zero, wrap_sval]

/-- What a change of the levels from `(a, b)` to `(a', b')` adds to the counter under `rev`. -/
def levelMove (rev a b a' b' : Bool) : Int := appliedStep (rom (romIndex (compose a b rev) (compose a' b' rev)))

/-- The square of the four level pairs has the symmetries that invert line A, invert line B, or swap the lines. Each
turns the square over, so the moves under an odd number of them change their sign. -/
def symmetrySign (wrongA wrongB reversed : Bool) : Int := if wrongA ^^ wrongB ^^ reversed then -1 else 1

theorem levelMove_symmetry (wrongA wrongB reversed rev a b a' b' : Bool) :
    levelMove (rev ^^ reversed) (a ^^ wrongA) (b ^^ wrongB) (a' ^^ wrongA) (b' ^^ wrongB) =
      symmetrySign wrongA wrongB reversed * levelMove rev a b a' b' := by
  revert wrongA wrongB reversed rev a b a' b'; decide

/-- The place of a Reading on the cycle 0, 2, 3, 1 that an upward count runs through (10_state.md R28). -/
def cyclePlace (rd : Reading) : Int :=
  match rd.toNat with
  | 0 => 0
  | 2 => 1
  | 3 => 2
  | _ => 3

/-- Unless both lines toggle, the counter moves as the Reading does on its cycle. -/
theorem levelMove_modEq_cyclePlace (rev a b eA eB : Bool) (h : (eA && eB) = false) :
    levelMove rev a b (a ^^ eA) (b ^^ eB) ≡
      cyclePlace (compose (a ^^ eA) (b ^^ eB) rev) - cyclePlace (compose a b rev) [ZMOD 4] := by
  revert rev a b eA eB; decide

/-- The counter moves by an odd step exactly when one line toggles. -/
theorem levelMove_parity (rev a b eA eB : Bool) :
    levelMove rev a b (a ^^ eA) (b ^^ eB) + (a ^^ eA).toNat + (b ^^ eB).toNat ≡ a.toNat + b.toNat [ZMOD 2] := by
  revert rev a b eA eB; decide

/-! ## What an edge does to the counter -/

/-- An edge, armed or not, moves the counter as the levels move; while unarmed they stay, and so does the counter. -/
theorem edge_cntVal_eq_bmod (eA eB : Bool) (s : State) :
    (edge eA eB s).cntVal =
      (s.cntVal + levelMove s.rev s.lvlA s.lvlB (s.lvlA ^^ (s.armed && eA)) (s.lvlB ^^ (s.armed && eB))).bmod
        (2 ^ s.cfg.cntW) := by
  rcases Bool.eq_false_or_eq_true s.armed with h | h
  · obtain ⟨hold, hnew⟩ := edge_readings h eA eB
    rw [edge_cntVal h, hold, hnew, countStep_eq_wrap, sval_wrap, h]
    rfl
  · have hstay : levelMove s.rev s.lvlA s.lvlB s.lvlA s.lvlB = 0 := by
      rw [levelMove, (rom_eq_zero_iff _ _).mpr rfl]
      rfl
    rw [edge_unarmed h, h, Bool.false_and, Bool.false_and, Bool.xor_false, Bool.xor_false, hstay, Int.add_zero,
      ← sval_wrap, State.cntVal, wrap_sval]

theorem edge_cntVal_modEq (eA eB : Bool) (s : State) :
    (edge eA eB s).cntVal ≡
      s.cntVal + levelMove s.rev s.lvlA s.lvlB (s.lvlA ^^ (s.armed && eA)) (s.lvlB ^^ (s.armed && eB))
      [ZMOD s.modulus] := by
  rw [edge_cntVal_eq_bmod, ← sval_wrap]
  exact sval_wrap_emod _ _

/-- The period of the levels divides the modulus, as CNT_W is at least 2 (00_scope.md R8). -/
theorem four_dvd_modulus (s : State) : (4 : Int) ∣ s.modulus :=
  pow_dvd_pow (2 : Int) s.cfg.cntW_ge

/-- Counters of one width that are congruent are equal. -/
theorem cntVal_eq_of_modEq {t u : State} (hcfg : u.cfg = t.cfg) (h : u.cntVal ≡ t.cntVal [ZMOD t.modulus]) :
    u.cntVal = t.cntVal := by
  have hu : sval (wrap u.cfg.cntW u.cntVal) = u.cntVal := congrArg sval (wrap_sval u.cnt)
  have ht : sval (wrap t.cfg.cntW t.cntVal) = t.cntVal := congrArg sval (wrap_sval t.cnt)
  rw [← hu, ← ht, hcfg, wrap_eq_of_emod_eq h]

/-! ## Edge transactions and sequences of them -/

/-- An edge transaction is an `edge` on its channels, with no response. -/
theorem effect_edge {i : Instr} (hi : i = .edgeA ∨ i = .edgeB ∨ i = .edgeAB) :
    ∃ eA eB, ∀ s, effect i s = quiet (edge eA eB s) := by
  obtain rfl | rfl | rfl := hi
  · exact ⟨true, false, fun _ => rfl⟩
  · exact ⟨false, true, fun _ => rfl⟩
  · exact ⟨true, true, fun _ => rfl⟩

/-- `effect_singleEdge`, with what makes the edge single. -/
theorem effect_singleEdge_toggles_one {i : Instr} (hi : i = .edgeA ∨ i = .edgeB) :
    ∃ eA eB, (eA ^^ eB) = true ∧ ∀ s, effect i s = quiet (edge eA eB s) := by
  obtain rfl | rfl := hi
  · exact ⟨true, false, rfl, fun _ => rfl⟩
  · exact ⟨false, true, rfl, fun _ => rfl⟩

theorem effect_edge_unarmed {i : Instr} (hi : i = .edgeA ∨ i = .edgeB ∨ i = .edgeAB) {s : State}
    (h : s.armed = false) : effect i s = quiet s := by
  obtain ⟨eA, eB, hedge⟩ := effect_edge hi
  rw [hedge, edge_unarmed h]

theorem exec_edge_unarmed {i : Instr} (hi : i = .edgeA ∨ i = .edgeB ∨ i = .edgeAB) {s : State}
    (h : s.armed = false) : exec i s = .next { s with rdata := none } :=
  exec_next_iff.mpr (effect_edge_unarmed hi h).symm

theorem execAll_cfg {is : List Instr} {s t : State} (h : execAll is s = .next t) : t.cfg = s.cfg :=
  execAll_keeps (fun v => v.cfg = s.cfg) (fun _ => True) (fun i v _ hv => (effect_cfg i v).trans hv) is s t
    (fun _ _ => trivial) rfl h

/-- What every transaction of a sequence keeps between two machines, the sequence keeps between them. -/
theorem execAll_keeps_related {R : State → State → Prop} {P : Instr → Prop}
    (keep : ∀ i t u, P i → R t u → R (effect i t) (effect i u)) {is : List Instr} {s v t u : State}
    (hp : ∀ i ∈ is, P i) (hr : R s v) (ht : execAll is s = .next t) (hu : execAll is v = .next u) : R t u := by
  induction is generalizing s v with
  | nil =>
    cases ht
    cases hu
    exact hr
  | cons i is ih =>
    rw [execAll_cons] at ht hu
    exact ih (fun j hj => hp j (List.mem_cons_of_mem i hj)) (keep i s v (hp i List.mem_cons_self) hr) ht hu

/-! ## Two runs that differ by a symmetry of the square -/

/-- `u` stands to `t` as the symmetry takes it: lines inverted, orientation reversed, and the count away from `n`
taken with the symmetry's sign. -/
structure SymmetricTo (wrongA wrongB reversed : Bool) (n : Int) (t u : State) : Prop where
  cfg : u.cfg = t.cfg
  armed : u.armed = t.armed
  lvlA : u.lvlA = (t.lvlA ^^ wrongA)
  lvlB : u.lvlB = (t.lvlB ^^ wrongB)
  rev : u.rev = (t.rev ^^ reversed)
  count : u.cntVal - n ≡ symmetrySign wrongA wrongB reversed * (t.cntVal - n) [ZMOD t.modulus]

section Symmetry

variable {wrongA wrongB reversed : Bool} {n : Int} {s v t u : State}

theorem SymmetricTo.modulus (h : SymmetricTo wrongA wrongB reversed n t u) : u.modulus = t.modulus := by
  rw [State.modulus, h.cfg, State.modulus]

/-- Any edge keeps the symmetry: both machines toggle the same lines, and `levelMove_symmetry` compares the moves. -/
theorem symmetricTo_edge (h : SymmetricTo wrongA wrongB reversed n t u) (eA eB : Bool) :
    SymmetricTo wrongA wrongB reversed n (edge eA eB t) (edge eA eB u) where
  cfg := by rw [edge_cfg, edge_cfg, h.cfg]
  armed := by rw [armed_edge, armed_edge, h.armed]
  lvlA := by rw [edge_lvlA, edge_lvlA, h.lvlA, h.armed, Bool.xor_right_comm]
  lvlB := by rw [edge_lvlB, edge_lvlB, h.lvlB, h.armed, Bool.xor_right_comm]
  rev := by rw [edge_rev, edge_rev, h.rev]
  count := by
    have hcount := h.count
    have ht := edge_cntVal_modEq eA eB t
    have hu := edge_cntVal_modEq eA eB u
    rw [h.modulus, h.rev, h.lvlA, h.lvlB, h.armed, Bool.xor_right_comm _ wrongA, Bool.xor_right_comm _ wrongB,
      levelMove_symmetry] at hu
    have hmod : (edge eA eB t).modulus = t.modulus := by rw [State.modulus, edge_cfg, State.modulus]
    rw [hmod]
    generalize levelMove _ _ _ _ _ = k at ht hu
    generalize symmetrySign _ _ _ = σ at hcount hu ⊢
    calc (edge eA eB u).cntVal - n
        ≡ u.cntVal + σ * k - n [ZMOD t.modulus] := hu.sub_right n
      _ = (u.cntVal - n) + σ * k := by ring
      _ ≡ σ * (t.cntVal - n) + σ * k [ZMOD t.modulus] := hcount.add_right _
      _ = σ * (t.cntVal + k - n) := by ring
      _ ≡ σ * ((edge eA eB t).cntVal - n) [ZMOD t.modulus] := (ht.symm.sub_right n).mul_left σ

theorem symmetricTo_quiet (h : SymmetricTo wrongA wrongB reversed n t u) :
    SymmetricTo wrongA wrongB reversed n (quiet t) (quiet u) :=
  ⟨h.cfg, h.armed, h.lvlA, h.lvlB, h.rev, h.count⟩

/-- Any sequence of edges keeps the symmetry. -/
theorem symmetricTo_execAll {es : List Instr} (h : SymmetricTo wrongA wrongB reversed n s v)
    (hes : ∀ e ∈ es, e = .edgeA ∨ e = .edgeB ∨ e = .edgeAB) (ht : execAll es s = .next t)
    (hu : execAll es v = .next u) : SymmetricTo wrongA wrongB reversed n t u := by
  refine execAll_keeps_related (fun i t' u' hi h' => ?_) hes h ht hu
  obtain ⟨eA, eB, hedge⟩ := effect_edge hi
  rw [hedge, hedge]
  exact symmetricTo_quiet (symmetricTo_edge h' eA eB)

/-- Under a symmetry that turns the square over the two counts cancel. -/
theorem SymmetricTo.counts_cancel (h : SymmetricTo wrongA wrongB reversed n t u)
    (hodd : (wrongA ^^ wrongB ^^ reversed) = true) : ((u.cntVal - n) + (t.cntVal - n)) % t.modulus = 0 := by
  have hcount := h.count.add_right (t.cntVal - n)
  rw [symmetrySign, if_pos hodd, neg_one_mul, neg_add_cancel] at hcount
  exact Int.emod_eq_zero_of_dvd (Int.modEq_zero_iff_dvd.mp hcount)

/-- Under a symmetry that only turns the square round the two counts agree. -/
theorem SymmetricTo.counts_agree (h : SymmetricTo wrongA wrongB reversed n t u)
    (heven : (wrongA ^^ wrongB ^^ reversed) = false) : u.cntVal = t.cntVal := by
  have hcount := h.count
  rw [symmetrySign, if_neg (by simp [heven]), one_mul] at hcount
  exact cntVal_eq_of_modEq h.cfg (by simpa using hcount.add_right n)

end Symmetry

/-- A reversed machine is the symmetric one that swaps the lines. -/
theorem symmetricTo_toggleRev (s : State) : SymmetricTo false false true s.cntVal s (quiet (toggleRev s)) where
  cfg := rfl
  armed := rfl
  lvlA := (Bool.xor_false s.lvlA).symm
  lvlB := (Bool.xor_false s.lvlB).symm
  rev := (Bool.xor_true s.rev).symm
  count := by
    have hcnt : (quiet (toggleRev s)).cntVal = s.cntVal := rfl
    rw [hcnt, sub_self, mul_zero]

/-- A machine with missed edges is the symmetric one that inverts the wrong lines. -/
theorem symmetricTo_wrongLevels (s : State) (wrongA wrongB : Bool) :
    SymmetricTo wrongA wrongB false s.cntVal s { s with lvlA := s.lvlA ^^ wrongA, lvlB := s.lvlB ^^ wrongB } where
  cfg := rfl
  armed := rfl
  lvlA := rfl
  lvlB := rfl
  rev := (Bool.xor_false s.rev).symm
  count := by
    have hcnt : State.cntVal { s with lvlA := s.lvlA ^^ wrongA, lvlB := s.lvlB ^^ wrongB } = s.cntVal := rfl
    rw [hcnt, sub_self, mul_zero]

/-- Settles O32: the reversed run stays the symmetric one throughout. -/
theorem replayAfterReverseNegatesTheCount : Obligations.ReplayAfterReverseNegatesTheCount := by
  intro s t u wdata es hes ht hu
  rw [execAll_cons] at hu
  have h := symmetricTo_execAll (symmetricTo_toggleRev s) hes ht hu
  have hcancel := h.counts_cancel rfl
  rw [State.modulus, execAll_cfg ht] at hcancel
  exact ⟨by simpa using h.lvlA, by simpa using h.lvlB, by simpa using h.rev, hcancel⟩

/-- Settles O34: the run with wrong levels stays the symmetric one throughout, for either choice of wrong lines. -/
theorem missedEdgeInvertsLaterCounts : Obligations.MissedEdgeInvertsLaterCounts := by
  intro s t u wrongA wrongB es _ hes ht hu
  have h := symmetricTo_execAll (symmetricTo_wrongLevels s wrongA wrongB) (fun e he => (hes e he).imp_right .inl) ht hu
  refine ⟨h.lvlA, h.lvlB, fun hone => ?_, fun hboth => h.counts_agree ?_⟩
  · have hcancel := h.counts_cancel (by simpa using hone)
    rwa [State.modulus, execAll_cfg ht] at hcancel
  · simpa using hboth

/-! ## The counter and the levels -/

/-- How far the counter is ahead of the place of the levels on the cycle. -/
def State.cycleOffset (s : State) : Int := s.cntVal - cyclePlace (compose s.lvlA s.lvlB s.rev)

theorem not_both_toggled (armed : Bool) {eA eB : Bool} (h : (eA ^^ eB) = true) :
    ((armed && eA) && (armed && eB)) = false := by
  revert armed eA eB; decide

/-- A single edge moves the counter and the levels together. -/
theorem cycleOffset_edge {eA eB : Bool} (h : (eA ^^ eB) = true) (s : State) :
    (edge eA eB s).cycleOffset ≡ s.cycleOffset [ZMOD 4] := by
  have hcnt := (edge_cntVal_modEq eA eB s).of_dvd (four_dvd_modulus s)
  have hplace := levelMove_modEq_cyclePlace s.rev s.lvlA s.lvlB _ _ (not_both_toggled s.armed h)
  have hmove := (hcnt.trans (hplace.add_left s.cntVal)).sub_right
    (cyclePlace (compose (s.lvlA ^^ (s.armed && eA)) (s.lvlB ^^ (s.armed && eB)) s.rev))
  rw [State.cycleOffset, State.cycleOffset, edge_lvlA, edge_lvlB, edge_rev]
  convert hmove using 1
  ring

/-- Settles O33: single edges keep the counter's offset from the levels' place modulo 4, which divides 2^W. -/
theorem closedPathsCountMultiplesOfFour : Obligations.ClosedPathsCountMultiplesOfFour := by
  intro s t es _ hes hrun hA hB
  obtain ⟨hrev, hoffset⟩ : t.rev = s.rev ∧ t.cycleOffset ≡ s.cycleOffset [ZMOD 4] := by
    refine execAll_keeps (fun v => v.rev = s.rev ∧ v.cycleOffset ≡ s.cycleOffset [ZMOD 4]) _ ?_ es s t hes
      ⟨rfl, rfl⟩ hrun
    rintro i v hi ⟨hrev, hoffset⟩
    obtain ⟨eA, eB, hsingle, hedge⟩ := effect_singleEdge_toggles_one hi
    rw [hedge]
    exact ⟨(edge_rev eA eB v).trans hrev, (cycleOffset_edge hsingle v).trans hoffset⟩
  rw [State.cycleOffset, State.cycleOffset, hA, hB, hrev] at hoffset
  obtain ⟨k, hk⟩ := (Int.ModEq.add_right_cancel' _ hoffset).symm.dvd
  exact ⟨k, by rw [hk, sub_self, Int.zero_emod]⟩

/-- CNT + LVL_A + LVL_B, of which every armed step keeps the parity. -/
def State.countWithLevels (s : State) : Int := s.cntVal + s.lvlA.toNat + s.lvlB.toNat

theorem countWithLevels_edge (eA eB : Bool) (s : State) :
    (edge eA eB s).countWithLevels ≡ s.countWithLevels [ZMOD 2] := by
  have htwo : (2 : Int) ∣ s.modulus := dvd_trans ⟨2, rfl⟩ (four_dvd_modulus s)
  have hcnt := (edge_cntVal_modEq eA eB s).of_dvd htwo
  have hparity := levelMove_parity s.rev s.lvlA s.lvlB (s.armed && eA) (s.armed && eB)
  rw [← edge_lvlA, ← edge_lvlB] at hcnt hparity
  generalize levelMove _ _ _ _ _ = k at hcnt hparity
  calc (edge eA eB s).cntVal + (edge eA eB s).lvlA.toNat + (edge eA eB s).lvlB.toNat
      ≡ s.cntVal + k + (edge eA eB s).lvlA.toNat + (edge eA eB s).lvlB.toNat [ZMOD 2] :=
        (hcnt.add_right _).add_right _
    _ = s.cntVal + (k + (edge eA eB s).lvlA.toNat + (edge eA eB s).lvlB.toNat) := by ring
    _ ≡ s.cntVal + (s.lvlA.toNat + s.lvlB.toNat) [ZMOD 2] := hparity.add_left _
    _ = s.cntVal + s.lvlA.toNat + s.lvlB.toNat := by ring

/-- While armed, an initialization does nothing and no other host transaction writes the counter or a level. -/
theorem countWithLevels_effect {s : State} (h : s.armed = true) (i : Instr) :
    (effect i s).countWithLevels ≡ s.countWithLevels [ZMOD 2] := by
  cases i with
  | edgeA | edgeB | edgeAB => exact countWithLevels_edge _ _ s
  | wrInit w =>
    rw [effect, initOperation_armed h]
    exact Int.ModEq.rfl
  | _ => exact Int.ModEq.rfl

/-- Settles O58: a step that leaves ARMED set is no RESET, and every transaction keeps the parity. -/
theorem countParityFollowsTheLevels : Obligations.CountParityFollowsTheLevels := by
  intro s t hs ht hstep
  obtain ⟨-, rfl⟩ | ⟨d, rest, -, -, rfl⟩ | ⟨d, rest, tw, wdata, i, -, -, -, rfl⟩ := step_next_cases hstep
  · rfl
  · cases ht
  · exact countWithLevels_effect (s := accept d rest s) hs i

/-! ## The next state of each edge transaction -/

/-- A single edge looks up +1 or -1 (40_edge.md R80). -/
theorem rom_singleEdge_unit (a b rev : Bool) {eA eB : Bool} (h : (eA ^^ eB) = true) :
    rom (romIndex (compose a b rev) (compose (a ^^ eA) (b ^^ eB) rev)) = 1 ∨
      rom (romIndex (compose a b rev) (compose (a ^^ eA) (b ^^ eB) rev)) = -1 := by
  rw [rom_unit_iff_adjacent, compose_xor_toggled]
  revert rev eA eB; decide

/-- `rom_edgeB`, by the same test of the levels as `rom_edgeA`. -/
theorem rom_edgeB_of_equalLevels (a b rev : Bool) :
    rom (romIndex (compose a b rev) (compose a (!b) rev)) = if (a == b) != rev then -1 else 1 := by
  revert a b rev; decide

/-- What an armed single edge writes: the counter moves by the lookup itself. -/
theorem edge_single_armed {s : State} (h : s.armed = true) {eA eB : Bool} (hsingle : (eA ^^ eB) = true) :
    edge eA eB s = { s with
      lvlA := s.lvlA ^^ eA
      lvlB := s.lvlB ^^ eB
      oldRd := compose s.lvlA s.lvlB s.rev
      newRd := compose (s.lvlA ^^ eA) (s.lvlB ^^ eB) s.rev
      cnt := wrap s.cfg.cntW (s.cntVal +
        rom (romIndex (compose s.lvlA s.lvlB s.rev) (compose (s.lvlA ^^ eA) (s.lvlB ^^ eB) s.rev))) } := by
  rw [edge_armed h, recordEdge, countStep_of_unit (rom_singleEdge_unit s.lvlA s.lvlB s.rev hsingle)]
  rfl

section NextState

variable {s : State}

theorem effect_edgeA_armed (h : s.armed = true) :
    effect .edgeA s = { s with
      lvlA := !s.lvlA
      oldRd := compose s.lvlA s.lvlB s.rev
      newRd := compose (!s.lvlA) s.lvlB s.rev
      cnt := wrap s.cfg.cntW (s.cntVal + if (s.lvlA == s.lvlB) != s.rev then 1 else -1)
      rdata := none } := by
  rw [effect, edge_single_armed h rfl, Bool.xor_true, Bool.xor_false, rom_edgeA]
  rfl

theorem effect_edgeB_armed (h : s.armed = true) :
    effect .edgeB s = { s with
      lvlB := !s.lvlB
      oldRd := compose s.lvlA s.lvlB s.rev
      newRd := compose s.lvlA (!s.lvlB) s.rev
      cnt := wrap s.cfg.cntW (s.cntVal + if (s.lvlA == s.lvlB) != s.rev then -1 else 1)
      rdata := none } := by
  rw [effect, edge_single_armed h rfl, Bool.xor_true, Bool.xor_false, rom_edgeB_of_equalLevels]
  rfl

theorem effect_edgeAB_armed (h : s.armed = true) :
    effect .edgeAB s = { s with
      lvlA := !s.lvlA
      lvlB := !s.lvlB
      oldRd := compose s.lvlA s.lvlB s.rev
      newRd := compose (!s.lvlA) (!s.lvlB) s.rev
      rdata := none } := by
  rw [effect, edge_armed h, Bool.xor_true, Bool.xor_true, rom_edgeAB, recordEdge, countStep_two]
  rfl

end NextState

/-- Settles O24: the lookup of a channel A edge is `rom_edgeA`. -/
theorem edgeATogglesItsLevelAndCounts : Obligations.EdgeATogglesItsLevelAndCounts := by
  refine ⟨decode_edgeWord (evA := true) (evB := false) rfl, rfl, fun s => ⟨fun h => ?_, fun h => ?_⟩⟩
  · rw [exec_eq_effect, effect_edgeA_armed h]
  · exact exec_edge_unarmed (.inl rfl) h

/-- Settles O25: the lookup of a channel B edge is `rom_edgeB`. -/
theorem edgeBTogglesItsLevelAndCounts : Obligations.EdgeBTogglesItsLevelAndCounts := by
  refine ⟨decode_edgeWord (evA := false) (evB := true) rfl, rfl, fun s => ⟨fun h => ?_, fun h => ?_⟩⟩
  · rw [exec_eq_effect, effect_edgeB_armed h]
  · exact exec_edge_unarmed (.inr (.inl rfl)) h

/-- Settles O26: the lookup +2 leaves the counter, and a sequence of such edges keeps its value. -/
theorem edgeABTogglesBothAndNeverCounts : Obligations.EdgeABTogglesBothAndNeverCounts := by
  refine ⟨decode_edgeWord (evA := true) (evB := true) rfl, rfl, fun s => ⟨fun h => ?_, fun h => ?_⟩,
    fun n s => ⟨_, execAll_eq_foldl _ s, ?_⟩⟩
  · rw [exec_eq_effect, effect_edgeAB_armed h]
  · exact exec_edge_unarmed (.inr (.inr rfl)) h
  · refine execAll_keeps (fun v => v.cntVal = s.cntVal) (· = .edgeAB) ?_ _ s _
      (fun _ => List.eq_of_mem_replicate) rfl (execAll_eq_foldl _ s)
    rintro i v rfl hv
    exact (edge_both_cntVal v).trans hv

/-- After the first unarmed edge has cleared the response, any more change nothing at all. -/
theorem execAll_edges_unarmed {s : State} (h : s.armed = false) {es : List Instr}
    (hes : ∀ e ∈ es, e = .edgeA ∨ e = .edgeB ∨ e = .edgeAB) : execAll es (quiet s) = .next (quiet s) := by
  induction es with
  | nil => rfl
  | cons e es ih =>
    rw [execAll_cons, effect_edge_unarmed (hes e List.mem_cons_self) (s := quiet s) h]
    exact ih fun j hj => hes j (List.mem_cons_of_mem e hj)

/-- Settles O28: the first edge clears the response, and the others change nothing. -/
theorem unarmedEdgesChangeNothing : Obligations.UnarmedEdgesChangeNothing := by
  intro s i is h hes
  rw [execAll_cons, effect_edge_unarmed (hes i List.mem_cons_self) h]
  exact execAll_edges_unarmed h fun j hj => hes j (List.mem_cons_of_mem i hj)

/-! ## The lookup of an armed edge -/

section Lookup

variable {s : State} {eA eB : Bool}

/-- The step that an armed edge looked up, read back from the Readings it recorded. -/
theorem edge_cntVal_of_unit (h : s.armed = true)
    (hk : rom (romIndex (edge eA eB s).oldRd (edge eA eB s).newRd) = 1 ∨
      rom (romIndex (edge eA eB s).oldRd (edge eA eB s).newRd) = -1) :
    (edge eA eB s).cntVal =
      (s.cntVal + rom (romIndex (edge eA eB s).oldRd (edge eA eB s).newRd)).bmod (2 ^ s.cfg.cntW) := by
  rw [edge_cntVal h, countStep_of_unit hk, sval_wrap, State.cntVal]

theorem edge_cntVal_of_not_unit (h : s.armed = true)
    (hk : ¬ (rom (romIndex (edge eA eB s).oldRd (edge eA eB s).newRd) = 1 ∨
      rom (romIndex (edge eA eB s).oldRd (edge eA eB s).newRd) = -1)) :
    (edge eA eB s).cntVal = s.cntVal := by
  rw [edge_cntVal h, countStep_of_not_unit hk, State.cntVal]

theorem edge_lookup_single (h : s.armed = true) (hsingle : (eA ^^ eB) = true) :
    rom (romIndex (edge eA eB s).oldRd (edge eA eB s).newRd) = 1 ∨
      rom (romIndex (edge eA eB s).oldRd (edge eA eB s).newRd) = -1 := by
  obtain ⟨hold, hnew⟩ := edge_readings h eA eB
  rw [hold, hnew]
  exact rom_singleEdge_unit _ _ _ hsingle

theorem edge_lookup_both (h : s.armed = true) :
    rom (romIndex (edge true true s).oldRd (edge true true s).newRd) = 2 := by
  obtain ⟨hold, hnew⟩ := edge_readings h true true
  rw [hold, hnew, Bool.xor_true, Bool.xor_true, rom_edgeAB]

end Lookup

theorem edge_snapVal (eA eB : Bool) (s : State) : (edge eA eB s).snapVal = s.snapVal := by
  obtain ⟨-, he⟩ | ⟨-, k, he⟩ := edge_cases eA eB s <;> rw [he]
  rfl

/-- Settles O27, step by step for an `edge` on any channels. -/
theorem armedEdgeRunsTheFiveSteps : Obligations.ArmedEdgeRunsTheFiveSteps := by
  intro s i eA eB h hi
  have hedge : effect i s = quiet (edge eA eB s) := by
    simp only [List.mem_cons, Prod.mk.injEq, List.not_mem_nil, or_false] at hi
    obtain ⟨rfl, rfl, rfl⟩ | ⟨rfl, rfl, rfl⟩ | ⟨rfl, rfl, rfl⟩ := hi <;> rfl
  obtain ⟨hold, hnew⟩ := edge_readings h eA eB
  have hA : (edge eA eB s).lvlA = (s.lvlA ^^ eA) := by rw [edge_lvlA, h, Bool.true_and]
  have hB : (edge eA eB s).lvlB = (s.lvlB ^^ eB) := by rw [edge_lvlB, h, Bool.true_and]
  rw [← hA, ← hB] at hnew
  refine ⟨_, exec_eq_effect i s, ?_⟩
  simp only [hedge, quiet_oldRd, quiet_newRd, quiet_cntVal, List.mem_cons, List.not_mem_nil, or_false]
  exact ⟨hA, hB, hold, hnew, edge_cntVal_of_unit h, fun hk => edge_cntVal_of_not_unit h (by omega),
    edge_rev eA eB s, armed_edge eA eB s, edge_cfgErr eA eB s, edge_snapVal eA eB s⟩

/-- Settles O29: a step of +1 or -1 does change the counter, as it is no multiple of 4 and so none of the modulus. -/
theorem everySingleEdgeChangesTheCountByOne : Obligations.EverySingleEdgeChangesTheCountByOne := by
  intro s t i h hexec
  obtain rfl := exec_next_iff.mp hexec
  constructor
  · intro hi
    obtain ⟨eA, eB, hsingle, hedge⟩ := effect_singleEdge_toggles_one hi
    rw [hedge, quiet_cntVal, quiet_oldRd, quiet_newRd]
    have hunit := edge_lookup_single h hsingle
    have hcnt := edge_cntVal_of_unit h hunit
    generalize rom _ = k at hunit hcnt ⊢
    have hdvd : s.modulus ∣ (edge eA eB s).cntVal - s.cntVal - k := by
      rw [hcnt, ← sval_wrap, sub_sub]
      exact Int.ModEq.dvd (sval_wrap_emod s.cfg.cntW (s.cntVal + k)).symm
    refine ⟨hunit, Int.emod_eq_zero_of_dvd hdvd, fun hstay => ?_⟩
    have hfour := (four_dvd_modulus s).trans hdvd
    omega
  · rintro rfl
    exact ⟨edge_lookup_both h, edge_both_cntVal s⟩

/-! ## Four edges in quadrature -/

/-- Settles O31, edge by edge; the four wrapped steps wrap as their sum. -/
theorem quadratureOrderGivesTheDirection : Obligations.QuadratureOrderGivesTheDirection := by
  intro s h hrev hA hB
  cases s
  cases h
  cases hrev
  cases hA
  cases hB
  have hlow : compose false false false = 0 := rfl
  have hhighA : compose true false false = 2 := rfl
  have hhighB : compose false true false = 1 := rfl
  constructor
  all_goals
    simp [execAll_cons, execAll_nil, effect_edgeA_armed, effect_edgeB_armed, State.cntVal, wrap_sval_wrap_add,
      add_assoc, sub_eq_add_neg, hlow, hhighA, hhighB]

end Sys2Proof.Machine
end

section
/-! The host statements (41_host.md): what each host read answers, what each host write changes, and what no host
transaction can reach. -/

namespace Sys2Proof.Machine

/-! ## The motion delta -/

theorem motionDelta_eq_bmod (s : State) :
    motionDelta s.cnt s.snap = (s.cntVal - s.snapVal).bmod (2 ^ s.cfg.cntW) :=
  sval_wrap _ _

/-- A delta is congruent to the difference it is wrapped from (41_host.md R90). -/
theorem motionDelta_modEq (s : State) : motionDelta s.cnt s.snap ≡ s.cntVal - s.snapVal [ZMOD s.modulus] :=
  sval_wrap_emod _ _

/-- A counter moved from the snapshot by `n`, wrapped or not, is `n` ahead of it. -/
theorem motionDelta_of_moved {w : Nat} (snap : BitVec w) (n : Int) :
    motionDelta (wrap w (sval snap + n)) snap = sval (wrap w n) := by
  rw [motionDelta, sub_eq_add_neg, wrap_sval_wrap_add, add_neg_cancel_comm]

/-- Settles O42: the difference of CNT and SNAP wraps as the movement does, which is its own value in the range. -/
theorem motionDeltaIsTheTrueMovementWithinRange : Obligations.MotionDeltaIsTheTrueMovementWithinRange := by
  intro s
  obtain ⟨hlo, hhi⟩ := sval_bounds (wrap s.cfg.cntW (s.cntVal - s.snapVal))
  refine ⟨motionDelta_eq_bmod s, hlo, hhi, fun n hnlo hnhi hcnt => ?_⟩
  rw [hcnt, State.snapVal, motionDelta_of_moved]
  exact sval_wrap_of_inRange (cntW_pos s.cfg) hnlo.le hnhi

/-- What one transaction classifies is, modulo 2^W, how far it moves the snapshot. -/
theorem classified_modEq_snapVal_move (i : Instr) (s : State) :
    (if i = .rdMotion then motionDelta s.cnt s.snap else 0) ≡ (effect i s).snapVal - s.snapVal [ZMOD s.modulus] := by
  by_cases hm : i = .rdMotion
  · subst hm
    rw [if_pos rfl]
    exact motionDelta_modEq s
  · rw [if_neg hm, effect_snapVal hm, sub_self]

/-- No transaction changes the modulus. -/
theorem effect_modulus (i : Instr) (s : State) : (effect i s).modulus = s.modulus := by
  rw [State.modulus, effect_cfg, State.modulus]

theorem motionDeltas_modEq {is : List Instr} {s t : State} (h : execAll is s = .next t) :
    motionDeltas is s ≡ t.snapVal - s.snapVal [ZMOD s.modulus] := by
  induction is generalizing s with
  | nil =>
    cases h
    rw [motionDeltas, sub_self]
  | cons i is ih =>
    rw [execAll_cons] at h
    have htail := ih h
    rw [effect_modulus] at htail
    calc motionDeltas (i :: is) s
        = (if i = .rdMotion then motionDelta s.cnt s.snap else 0) + motionDeltas is (effect i s) :=
          motionDeltas_cons i is s
      _ ≡ ((effect i s).snapVal - s.snapVal) + (t.snapVal - (effect i s).snapVal) [ZMOD s.modulus] :=
          (classified_modEq_snapVal_move i s).add htail
      _ = t.snapVal - s.snapVal := by ring

/-- Settles O50, by induction on the sequence: what each transaction classifies is what it moves the snapshot by. -/
theorem motionDeltasTelescope : Obligations.MotionDeltasTelescope := by
  intro is s t hrun
  exact Int.emod_eq_zero_of_dvd (motionDeltas_modEq hrun).symm.dvd

/-! ## What the reads answer -/

/-- COUNT shows nothing but the signed value of the counter. -/
theorem countValue_eq_of_cntVal_eq {s t : State} (h : t.cntVal = s.cntVal) : countValue t = countValue s := by
  apply BitVec.eq_of_toInt_eq
  rw [countValue_toInt, countValue_toInt, h]

/-- OLD_COUNT answers 0 where the snapshot is 0. -/
theorem oldCountValue_of_snapVal_zero {s : State} (h : s.snapVal = 0) : oldCountValue s = 0 := by
  apply BitVec.eq_of_toInt_eq
  rw [oldCountValue_toInt, h]
  exact BitVec.toInt_zero.symm

theorem resetTransaction_snapVal (s : State) : (resetTransaction s).snapVal = 0 := BitVec.toInt_zero

/-- Above its width a sign-extended pattern shows copies of its sign bit (00_scope.md R11). -/
theorem sext32_getLsbD_of_ge {w k : Nat} (p : BitVec w) (hk : w ≤ k) (hk' : k < 32) :
    (sext32 p).getLsbD k = p.getLsbD (w - 1) := by
  rw [sext32, BitVec.getLsbD_signExtend, if_neg (by omega), decide_eq_true hk', Bool.true_and,
    BitVec.msb_eq_getLsbD_last]

/-- Settles O39: no transaction but an edge writes CNT, and the answer shows CNT only. -/
theorem readOfCountAnswersTheCounter : Obligations.ReadOfCountAnswersTheCounter := by
  refine ⟨decode_hostWord_read 0x0, rfl, fun s =>
    ⟨countValue s, exec_eq_effect _ s, countValue_toInt s, fun k => sext32_getLsbD_of_ge s.cnt, ?_⟩⟩
  intro is t hhost hrun
  rw [execAll_cons] at hrun
  have hcnt : t.cntVal = s.cntVal :=
    execAll_keeps (·.cntVal = s.cntVal) _ (fun i u hi hu => (effect_cntVal hi u).trans hu) is
      (effect .rdCount s) t hhost rfl hrun
  rw [← countValue_eq_of_cntVal_eq hcnt]
  exact exec_eq_effect _ t

/-- Settles O40: RESET makes SNAP 0, and only RD_MOTION writes it. -/
theorem readOfOldCountAnswersTheSnapshot : Obligations.ReadOfOldCountAnswersTheSnapshot := by
  refine ⟨decode_hostWord_read 0x1, rfl, fun s =>
    ⟨oldCountValue s, exec_eq_effect _ s, oldCountValue_toInt s, ?_⟩⟩
  intro is t hne hrun
  have hsnap : t.snapVal = 0 :=
    execAll_keeps (·.snapVal = 0) _ (fun i u hi hu => (effect_snapVal hi u).trans hu) is _ t hne
      (resetTransaction_snapVal s) hrun
  rw [← oldCountValue_of_snapVal_zero hsnap]
  exact exec_eq_effect _ t

/-- MOTION is the code of the classification (20_memory.md R41). -/
theorem motionValue_of_classify {s : State} {m : Motion} (h : classify (motionDelta s.cnt s.snap) = m) :
    motionValue s = zext32 (mcode m) := by
  rw [motionValue, h]

/-- Settles O41: the classification takes the sign of the delta, and each has its code. -/
theorem readOfMotionClassifiesAndMovesTheSnapshot : Obligations.ReadOfMotionClassifiesAndMovesTheSnapshot := by
  refine ⟨decode_hostWord_read 0x2, rfl, fun s => ⟨motionValue s, exec_eq_effect _ s, ?_⟩⟩
  rw [← motionDelta_eq_bmod]
  obtain ⟨hd, hc⟩ | ⟨hd, hc⟩ | ⟨hd, hc⟩ := classify_cases (motionDelta s.cnt s.snap)
  · exact ⟨fun _ => motionValue_of_classify hc, by omega, by omega⟩
  · exact ⟨by omega, fun _ => motionValue_of_classify hc, by omega⟩
  · exact ⟨by omega, by omega, fun _ => motionValue_of_classify hc⟩

/-- The bits of STATUS that show ARMED and CFG_ERR (41_host.md R91). -/
theorem statusBits_getLsbD (cfgErr armed rev : Bool) :
    (statusBits cfgErr armed rev).getLsbD 1 = armed ∧ (statusBits cfgErr armed rev).getLsbD 2 = cfgErr := by
  revert cfgErr armed rev; decide

/-- Settles O43: the bits are the flags, and in a consistent state CFG_ERR excludes ARMED. -/
theorem readOfStatusAnswersTheFlags : Obligations.ReadOfStatusAnswersTheFlags := by
  refine ⟨decode_hostWord_read 0x3, rfl, fun s =>
    ⟨statusValue s, exec_eq_effect _ s, statusBits_toNat s.cfgErr s.armed s.rev, ?_⟩⟩
  rintro ⟨hexcl, -⟩ ⟨hbit1, hbit2⟩
  obtain ⟨harmed, herr⟩ := statusBits_getLsbD s.cfgErr s.armed s.rev
  have hunarmed : s.armed = false := hexcl (herr.symm.trans hbit2)
  exact absurd (hunarmed.symm.trans (harmed.symm.trans hbit1)) nofun

/-- The offset in a word's low bits is `k` only where the word's number says so. -/
theorem lowBits_ne {tw : TW} {k : Nat} (hk : k < 16) (h : tw.toNat % 16 ≠ k) :
    BitVec.ofNat 4 tw.toNat ≠ BitVec.ofNat 4 k := by
  intro heq
  have hmod : tw.toNat % 16 = k % 16 := congrArg BitVec.toNat heq
  omega

/-- Settles O46: a word from 0x04 to 0x0F is decoded as a read of an offset from 0x4 on. -/
theorem readsOfCommandAndReservedOffsetsAnswerZero : Obligations.ReadsOfCommandAndReservedOffsetsAnswerZero := by
  refine ⟨fun tw wdata s hlo hhi => ?_, fun off s => ⟨rfl, rfl, rfl⟩⟩
  have hdecode := decode_of_le_0x0F hhi wdata
  obtain ⟨-, hencode, -⟩ := decodedWordsEncodeBack tw wdata _ hdecode
  have hraz : 4 ≤ (BitVec.ofNat 4 tw.toNat).toNat := by
    rw [BitVec.toNat_ofNat]
    omega
  have hne : BitVec.ofNat 4 tw.toNat ≠ 0x2 := lowBits_ne (k := 2) (by decide) (by omega)
  refine ⟨_, hdecode, hencode, ?_⟩
  rw [exec_eq_effect, effect_decodeRead, if_neg hne, registerValue_raz hraz]

/-! ## What the writes change -/

/-- Settles O47: of the words from 0x40 to 0x4F only 0x44 and 0x45 are decoded as a write that is not ignored. -/
theorem writesOfReadOnlyAndReservedOffsetsAreIgnored : Obligations.WritesOfReadOnlyAndReservedOffsetsAreIgnored := by
  refine ⟨fun tw wdata s hrange => ?_, fun off wdata s => ⟨rfl, rfl, rfl⟩⟩
  have hdecode := decode_of_0x40_to_0x4F (tw := tw) (by omega) wdata
  obtain ⟨-, hencode, -⟩ := decodedWordsEncodeBack tw wdata _ hdecode
  have hrev : BitVec.ofNat 4 tw.toNat ≠ 0x4 := lowBits_ne (k := 4) (by decide) (by omega)
  have hinit : BitVec.ofNat 4 tw.toNat ≠ 0x5 := lowBits_ne (k := 5) (by decide) (by omega)
  refine ⟨_, hdecode, hencode, ?_⟩
  rw [exec_eq_effect, effect_decodeWrite_ignored hrev hinit]
  rfl

/-- An armed edge toggles the levels of its channels (40_edge.md R73). -/
theorem edge_levels {s : State} (h : s.armed = true) (eA eB : Bool) :
    (edge eA eB s).lvlA = (s.lvlA ^^ eA) ∧ (edge eA eB s).lvlB = (s.lvlB ^^ eB) := by
  rw [edge_lvlA, edge_lvlB, h, Bool.true_and, Bool.true_and]
  exact ⟨rfl, rfl⟩

/-- Reversed, a single edge looks up the opposite step (41_host.md R92). -/
theorem rom_singleEdge_reversed (a b rev : Bool) {eA eB : Bool} (h : (eA ^^ eB) = true) :
    rom (romIndex (compose a b (!rev)) (compose (a ^^ eA) (b ^^ eB) (!rev))) =
      -rom (romIndex (compose a b rev) (compose (a ^^ eA) (b ^^ eB) rev)) := by
  revert a b rev eA eB; decide

/-- Settles O44: the edge after WR_REVERSE composes both its Readings under the toggled REV. -/
theorem reverseTogglesOnlyTheOrientation : Obligations.ReverseTogglesOnlyTheOrientation := by
  refine ⟨decode_hostWord_write 0x4, fun _ => rfl, fun s wdata wdata' => ⟨exec_eq_effect _ s, ?_, ?_⟩⟩
  · have htwice : effect (.wrReverse wdata') (effect (.wrReverse wdata) s) = quiet (toggleRev (toggleRev s)) := rfl
    rw [execAll_cons, execAll_cons, htwice, toggleRev_twice]
    rfl
  · intro harmed e he
    obtain ⟨eA, eB, hsingle, hedge⟩ := effect_singleEdge_toggles_one (by simpa using he)
    have hrun : execAll [.wrReverse wdata, e] s = .next (quiet (edge eA eB (quiet (toggleRev s)))) := by
      rw [execAll_cons, execAll_cons, hedge, execAll_nil]
      rfl
    refine ⟨_, _, exec_eq_effect e s, hrun, ?_⟩
    obtain ⟨hold, hnew⟩ := edge_readings harmed eA eB
    obtain ⟨hold', hnew'⟩ := edge_readings (s := quiet (toggleRev s)) harmed eA eB
    obtain ⟨hA, hB⟩ := edge_levels harmed eA eB
    obtain ⟨hA', hB'⟩ := edge_levels (s := quiet (toggleRev s)) harmed eA eB
    rw [hedge]
    refine ⟨hold', ?_, hA'.trans hA.symm, hB'.trans hB.symm, ?_⟩
    · rw [quiet_newRd, quiet_lvlA, quiet_lvlB, hnew', hA', hB']
      rfl
    · rw [quiet_oldRd, quiet_newRd, quiet_oldRd, quiet_newRd, hold, hnew, hold', hnew']
      exact rom_singleEdge_reversed s.lvlA s.lvlB s.rev hsingle

/-- Settles O45, one clause per case of the initialization operation. -/
theorem initSeedsAndArmsOrReportsTheConfigurationError :
    Obligations.InitSeedsAndArmsOrReportsTheConfigurationError := by
  refine ⟨decode_hostWord_write 0x5, fun _ => rfl, fun s wdata => ?_⟩
  rw [exec_eq_effect, effect]
  refine ⟨fun harmed => ?_, fun hunarmed hA hB => ?_, fun hunarmed hincapable => ?_⟩
  · rw [initOperation_armed harmed]
    rfl
  · rw [initOperation_capable hunarmed (linesCapable_eq_true_iff.mpr ⟨hA, hB⟩)]
    rfl
  · rw [initOperation_incapable hunarmed (linesCapable_eq_false_iff.mpr hincapable)]
    rfl

/-! ## What no host transaction reaches -/

theorem format_of_decode_hostWord {we : Bool} {off : Offset} {wdata : Word} {i : Instr}
    (h : decode (hostWord we off) wdata = .ok i) : i.format ≠ .ev := by
  cases we with
  | false =>
    rw [decode_hostWord_read] at h
    cases h
    exact (format_decodeRead off).trans_ne nofun
  | true =>
    rw [decode_hostWord_write] at h
    cases h
    exact (format_decodeWrite off wdata).trans_ne nofun

/-- The strobe with neither event forms a refused word, so only an edge is decoded (30_encoding.md R59 (d)). -/
theorem format_of_decode_edgeWord {evA evB : Bool} {wdata : Word} {i : Instr}
    (h : decode (edgeWord evA evB) wdata = .ok i) : i.format = .ev := by
  cases hev : evA || evB with
  | true =>
    rw [decode_edgeWord hev] at h
    cases h
    exact format_strobedEdge evA evB
  | false =>
    obtain ⟨rfl, rfl⟩ := Bool.or_eq_false_iff.mp hev
    cases h

/-- Once armed, no host transaction writes a level or a Reading: WR_INIT, the only one that can, then does nothing. -/
theorem effect_host_keeps_levels {i : Instr} {s : State} (hi : i.format ≠ .ev) (h : s.armed = true) :
    (effect i s).lvlA = s.lvlA ∧ (effect i s).lvlB = s.lvlB ∧ (effect i s).oldRd = s.oldRd ∧
      (effect i s).newRd = s.newRd := by
  cases i with
  | edgeA | edgeB | edgeAB => exact absurd rfl hi
  | wrInit w =>
    rw [effect, initOperation_armed h]
    exact ⟨rfl, rfl, rfl, rfl⟩
  | _ => exact ⟨rfl, rfl, rfl, rfl⟩

/-- RD_MOTION moves the snapshot to the counter, and no other transaction moves it (41_host.md R89). -/
theorem effect_snapVal_cases (i : Instr) (s : State) :
    (effect i s).snapVal = s.snapVal ∨ (i = .rdMotion ∧ (effect i s).snapVal = s.cntVal) := by
  by_cases hm : i = .rdMotion
  · subst hm
    exact .inr ⟨rfl, rfl⟩
  · exact .inl (effect_snapVal hm s)

/-- Settles O51: the words by their formats, and the frames of the host transactions. -/
theorem hostCannotReachTheDecoder : Obligations.HostCannotReachTheDecoder := by
  refine ⟨fun _ _ _ _ => format_of_decode_hostWord, fun _ _ _ _ => format_of_decode_edgeWord, ?_⟩
  intro i s t hi hexec
  obtain rfl := exec_next_iff.mp hexec
  exact ⟨effect_cntVal hi s, effect_snapVal_cases i s, fun h => ⟨effect_armed h i, effect_host_keeps_levels hi h⟩⟩

end Sys2Proof.Machine
end

section
/-! The exception statements (60_exceptions.md): what a simultaneous change of both lines counts. -/

namespace Sys2Proof.Machine

/-- From both levels low, a single edge and then the other channel's make two steps of one sign, up where A comes
first and down where B does (60_exceptions.md R106). -/
theorem levelMove_bothRise {eA eB : Bool} (hsingle : (eA ^^ eB) = true) :
    levelMove false false false eA eB + levelMove false eA eB true true = if eA then 2 else -2 := by
  revert eA eB; decide

/-- Both lines rising in two single edges, one on each channel: both levels end high, and the counter has made the
two steps of `levelMove_bothRise`. -/
theorem execAll_bothRise {s : State} (h : s.armed = true) (hrev : s.rev = false) (hA : s.lvlA = false)
    (hB : s.lvlB = false) {i j : Instr} {eA eB : Bool} (hsingle : (eA ^^ eB) = true)
    (hi : ∀ v, effect i v = quiet (edge eA eB v)) (hj : ∀ v, effect j v = quiet (edge (!eA) (!eB) v)) :
    ∃ t, execAll [i, j] s = .next t ∧ t.lvlA = true ∧ t.lvlB = true ∧
      (t.cntVal - s.cntVal - if eA then 2 else -2) % s.modulus = 0 := by
  refine ⟨quiet (edge (!eA) (!eB) (quiet (edge eA eB s))), ?_, ?_, ?_, ?_⟩
  · rw [execAll_cons, execAll_cons, hi, hj, execAll_nil]
  · simp [h, hA]
  · simp [h, hB]
  · have hfirst := edge_cntVal_modEq eA eB s
    have hsecond := edge_cntVal_modEq (!eA) (!eB) (quiet (edge eA eB s))
    simp only [State.modulus, h, hrev, hA, hB, quiet_cfg, quiet_rev, quiet_lvlA, quiet_lvlB, quiet_armed,
      quiet_cntVal, edge_cfg, edge_rev, edge_lvlA, edge_lvlB, armed_edge, Bool.true_and, Bool.false_xor,
      Bool.xor_not_self] at hfirst hsecond
    have hboth := hsecond.trans (hfirst.add_right _)
    rw [add_assoc, levelMove_bothRise hsingle] at hboth
    rw [sub_sub]
    exact Int.emod_eq_zero_of_dvd hboth.symm.dvd

/-- Settles O35: delivered at once the change counts nothing, delivered as two edges it counts by their order. -/
theorem simultaneousChangeCountsByDeliveryForm : Obligations.SimultaneousChangeCountsByDeliveryForm := by
  intro s h hrev hA hB
  have htogether : ∃ t, execAll [.edgeAB] s = .next t ∧ t.lvlA = true ∧ t.lvlB = true ∧ t.cntVal = s.cntVal := by
    obtain ⟨hA', hB'⟩ := edge_levels h true true
    rw [hA] at hA'
    rw [hB] at hB'
    exact ⟨_, execAll_eq_foldl _ s, hA', hB', edge_both_cntVal s⟩
  have hup := execAll_bothRise h hrev hA hB (eA := true) (eB := false) (i := .edgeA) (j := .edgeB) rfl
    (fun _ => rfl) (fun _ => rfl)
  have hdown := execAll_bothRise h hrev hA hB (eA := false) (eB := true) (i := .edgeB) (j := .edgeA) rfl
    (fun _ => rfl) (fun _ => rfl)
  simp only [Bool.false_eq_true, if_false, sub_neg_eq_add] at hdown
  exact ⟨htogether, hup, hdown⟩

end Sys2Proof.Machine
end

section
/-! The reset and hazard statements (70_reset_and_hazards.md): what RESET leaves and how long it lasts, and WR_REVERSE
on either side of WR_INIT. -/

namespace Sys2Proof.Machine

/-! ## The registers after RESET -/

/-- COUNT answers 0 where the counter is 0. -/
theorem countValue_of_cntVal_zero {s : State} (h : s.cntVal = 0) : countValue s = 0 := by
  apply BitVec.eq_of_toInt_eq
  rw [countValue_toInt, h]
  exact BitVec.toInt_zero.symm

/-- MOTION shows 0b00 where the snapshot stands at the counter. -/
theorem motionValue_of_settled {s : State} (h : s.Settled) : motionValue s = 0 :=
  Option.some.inj (congrArg State.rdata (effect_rdMotion_of_settled h))

theorem settled_resetTransaction (s : State) : (resetTransaction s).Settled := rfl

theorem statusBits_allClear : statusBits false false false = 0 := by decide

theorem statusValue_resetTransaction (s : State) : statusValue (resetTransaction s) = 0 := statusBits_allClear

/-- After RESET a read of any offset answers 0 and does nothing else, MOTION's read included. -/
theorem effect_decodeRead_resetTransaction (off : Offset) (s : State) :
    effect (decodeRead off) (resetTransaction s) = { resetTransaction s with rdata := some 0 } := by
  obtain ⟨-, hi⟩ | ⟨-, hi⟩ | ⟨-, hi⟩ | ⟨-, hi⟩ | ⟨-, hi⟩ := decodeRead_cases off
  · rw [hi, effect, countValue_of_cntVal_zero (resetTransaction_cntVal s)]
    rfl
  · rw [hi, effect, oldCountValue_of_snapVal_zero (resetTransaction_snapVal s)]
    rfl
  · rw [hi, effect_rdMotion_of_settled (settled_resetTransaction s)]
  · rw [hi, effect, statusValue_resetTransaction]
    rfl
  · rw [effect_raz hi]
    rfl

/-! ## Before initialization -/

/-- While unarmed no transaction moves the counter: its only writers are the edges (40_edge.md R79). -/
theorem effect_cntVal_unarmed {s : State} (h : s.armed = false) (i : Instr) : (effect i s).cntVal = s.cntVal := by
  by_contra hne
  have hedge : i = .edgeA ∨ i = .edgeB := effect_cntVal_writer hne
  exact hne (by rw [effect_edge_unarmed (hedge.imp_right .inl) h, quiet_cntVal])

/-- Without WR_INIT nothing arms the edges (10_state.md R24). -/
theorem effect_armed_unarmed {i : Instr} {s : State} (hi : ∀ w, i ≠ .wrInit w) (h : s.armed = false) :
    (effect i s).armed = false := by
  by_contra harms
  obtain ⟨-, w, hw⟩ := effect_arms h (by simpa using harms)
  exact hi w hw

/-- Until WR_INIT a sequence leaves the counter where it was and the edges disarmed. -/
theorem execAll_unarmed {is : List Instr} {s t : State} (hinit : ∀ i ∈ is, ∀ w, i ≠ .wrInit w)
    (h : s.armed = false) (hrun : execAll is s = .next t) : t.cntVal = s.cntVal ∧ t.armed = false := by
  refine execAll_keeps (fun v => v.cntVal = s.cntVal ∧ v.armed = false) _ ?_ is s t hinit ⟨rfl, h⟩ hrun
  rintro i v hi ⟨hcnt, hunarmed⟩
  exact ⟨(effect_cntVal_unarmed hunarmed i).trans hcnt, effect_armed_unarmed hi hunarmed⟩

/-- Until RD_MOTION a sequence leaves the snapshot where it was (41_host.md R89). -/
theorem execAll_snapVal {is : List Instr} {s t : State} (hmotion : ∀ i ∈ is, i ≠ .rdMotion)
    (hrun : execAll is s = .next t) : t.snapVal = s.snapVal :=
  execAll_keeps (·.snapVal = s.snapVal) _ (fun _ v hi hv => (effect_snapVal hi v).trans hv) is s t hmotion rfl hrun

/-- A MOTION read of a settled state answers 0b00, whatever it makes of the snapshot. -/
theorem exec_rdMotion_of_settled {s : State} (h : s.Settled) :
    exec .rdMotion s = .next { s with snap := s.cnt, rdata := some 0 } := by
  rw [exec_eq_effect, effect, motionValue_of_settled h]
  rfl

/-- Settles O17: the step resets the block on the accepted delivery; the counter then waits for WR_INIT, the snapshot for
RD_MOTION. -/
theorem resetGivesEveryElementItsResetValue : Obligations.ResetGivesEveryElementItsResetValue := by
  intro s la lb rest hp
  refine ⟨resetTransaction (accept ⟨la, lb, .rst⟩ rest s), step_of_fetch_reset (fetch_rst hp rfl), rfl, ?_, ?_, ?_⟩
  · intro off
    exact ⟨decodeRead off, decode_hostWord_read off 0,
      exec_next_iff.mpr (effect_decodeRead_resetTransaction off _).symm⟩
  · intro i hi
    exact exec_edge_unarmed (by simpa using hi) rfl
  · intro is u hrun
    constructor
    · intro hinit
      obtain ⟨hcnt, hunarmed⟩ := execAll_unarmed hinit rfl hrun
      exact ⟨hcnt.trans (resetTransaction_cntVal _), hunarmed⟩
    · intro hmotion hcnt
      have hsnap : u.snapVal = 0 := (execAll_snapVal hmotion hrun).trans (resetTransaction_snapVal _)
      exact exec_rdMotion_of_settled (hsnap.trans hcnt.symm)

/-- Settles O18: both sides are one record, its parameters R8's defaults. -/
theorem resetStateHoldsTheResetValues : Obligations.ResetStateHoldsTheResetValues := rfl

/-! ## WR_REVERSE and WR_INIT in either order -/

/-- An armed edge composes both Readings from the levels and looks at neither stored one (40_edge.md R72). -/
theorem edge_setReadings {s : State} (h : s.armed = true) (o n : Reading) (eA eB : Bool) :
    edge eA eB { s with oldRd := o, newRd := n } = edge eA eB s := by
  rw [edge_armed h, edge_armed (s := { s with oldRd := o, newRd := n }) h]
  rfl

/-- The two orders differ in the seeded Readings only: the later WR_REVERSE leaves them as composed under the old REV. -/
theorem seed_toggleRev (s : State) :
    seed (toggleRev s) = { toggleRev (seed s) with
      oldRd := compose s.lineA s.lineB (!s.rev), newRd := compose s.lineA s.lineB (!s.rev) } := rfl

section EitherOrder

variable {s : State}

/-- An edge between the two orders' states sees no difference. -/
theorem effect_edge_seed_toggleRev {e : Instr} (he : e = .edgeA ∨ e = .edgeB ∨ e = .edgeAB) :
    effect e (quiet (seed (toggleRev s))) = effect e (quiet (toggleRev (seed s))) := by
  obtain ⟨eA, eB, hedge⟩ := effect_edge he
  rw [hedge, hedge, seed_toggleRev]
  exact congrArg quiet (edge_setReadings (s := quiet (toggleRev (seed s))) rfl _ _ eA eB)

variable (h : s.armed = false) (hc : linesCapable s.cfg = true) (w v : Word) (is : List Instr)

include h hc

theorem execAll_reverse_init :
    execAll (.wrReverse w :: .wrInit v :: is) s = execAll is (quiet (seed (toggleRev s))) := by
  rw [execAll_cons, execAll_cons, effect, effect, initOperation_capable (s := quiet (toggleRev s)) h hc]
  rfl

theorem execAll_init_reverse :
    execAll (.wrInit v :: .wrReverse w :: is) s = execAll is (quiet (toggleRev (seed s))) := by
  rw [execAll_cons, execAll_cons, effect, effect, initOperation_capable h hc]
  rfl

end EitherOrder

/-- Settles O54: the two orders arm alike, and the first edge overwrites the Readings in which they differ. -/
theorem reverseMayComeBeforeOrAfterInit : Obligations.ReverseMayComeBeforeOrAfterInit := by
  intro s w v e es h hA hB he
  have hc := linesCapable_eq_true_iff.mpr ⟨hA, hB⟩
  refine ⟨?_, ⟨_, execAll_reverse_init h hc w v [], rfl, rfl, rfl⟩,
    ⟨_, execAll_init_reverse h hc w v [], rfl, rfl, rfl⟩⟩
  rw [execAll_reverse_init h hc, execAll_init_reverse h hc, execAll_cons, execAll_cons,
    effect_edge_seed_toggleRev he]

end Sys2Proof.Machine
end
